-- ==== Sys2Proof/Word.lean ====
section
/-! DEFINITION. The word types of the block: a u32 of the call port and the counter, and a byte of a buffer or of the
LCD bus (spec/00_scope.md R12; spec/10_state.md R19, R22). -/

namespace Sys2Proof

/-- A u32: CMD, ARG, VAL, CNT and every tick count (R19, R22). Arithmetic on it wraps modulo 2^32, as `+32` and `-32`
of R12 do. -/
abbrev Word := BitVec 32

/-- A u8: a byte of WBUF or RBUF, of the LCD bus, of a frame (R19, R30, R35). -/
abbrev Byte := BitVec 8

end Sys2Proof
end

