-- ==== Sys2Proof/Config.lean ====
section
/-! DEFINITION. What an implementation fixes (the parameters of spec/00_scope.md R9, the conversion of R10) and the free
values: constants with no body, of which nothing can be proved but that they are some value of their type. -/

namespace Sys2Proof

/-- The parameters of R9, each an argument of the model (R9, R11). State carries one such record, `State.par`, that no
step writes, so that a statement about every state is a statement about every choice of them (assumption log 3). -/
structure Params where
  /-- CNT_WIDTH, the width of CNT in bits. -/
  cntWidth : Nat
  /-- HAS_RW: an LCD read/write pin exists. -/
  hasRw : Bool
  /-- TICK_HZ. -/
  tickHz : Nat
  /-- IDLE_TIMEOUT, ticks. -/
  idleTimeout : Word
  /-- REQ_HOLD_MS, milliseconds. -/
  reqHoldMs : Nat
  /-- POST_RELEASE_WAIT, ticks. -/
  postReleaseWait : Word
  /-- ACK_LIMIT, ticks. -/
  ackLimit : Word
  /-- BIT_THRESHOLD, ticks. -/
  bitThreshold : Word
  /-- BIT_PULSE_LIMIT, ticks; `none` is NONE, unbounded (R104). -/
  bitPulseLimit : Option Word
  /-- FRAME_BITS. -/
  frameBits : Nat
  /-- T_SP, ticks. -/
  tSp : Word
  /-- T_PW, ticks. -/
  tPw : Word
  /-- T_CYC, ticks. -/
  tCyc : Word
  /-- POLL_INTERVAL, ticks. -/
  pollInterval : Word
  /-- MAX_POLLS; 0 is assumption log 35. -/
  maxPolls : Nat
  /-- BLIND_SHORT, ticks. -/
  blindShort : Word
  /-- BLIND_LONG, ticks. -/
  blindLong : Word
  /-- INIT_REPEAT, 1 or 3. -/
  initRepeat : Nat
  /-- INIT_WAIT1, ticks. -/
  initWait1 : Word
  /-- INIT_WAIT2, ticks. -/
  initWait2 : Word
  /-- POWER_ON_MS, milliseconds. -/
  powerOnMs : Nat
  /-- BUF_SIZE, bytes. -/
  bufSize : Nat
  /-- ROW_OFFSET[0]. -/
  rowOffset0 : Byte
  /-- ROW_OFFSET[1]. -/
  rowOffset1 : Byte
  deriving DecidableEq, Repr

/-- `ticks(t) = ceil(t × TICK_HZ)` for a time of `ns` nanoseconds (R10). -/
def Config.ticksOfNs (tickHz ns : Nat) : Nat := (ns * tickHz + 999999999) / 1000000000

/-- The parameters at a tick frequency: each time of R9's table converted by R10; MAX_POLLS is 5 ms / 10 µs = 500. DESIGN
CHOICE: a tick count that does not fit in u32, which R9 and R10 do not speak of, is taken modulo 2^32 (assumption log 32). -/
def Config.paramsAt (tickHz : Nat) (hasRw : Bool) : Params where
  cntWidth := 32
  hasRw := hasRw
  tickHz := tickHz
  idleTimeout := BitVec.ofNat 32 (Config.ticksOfNs tickHz 1000000)
  reqHoldMs := 10
  postReleaseWait := BitVec.ofNat 32 (Config.ticksOfNs tickHz 40000)
  ackLimit := BitVec.ofNat 32 (Config.ticksOfNs tickHz 1000000)
  bitThreshold := BitVec.ofNat 32 (Config.ticksOfNs tickHz 50000)
  bitPulseLimit := none
  frameBits := 40
  tSp := BitVec.ofNat 32 (Config.ticksOfNs tickHz 30)
  tPw := BitVec.ofNat 32 (Config.ticksOfNs tickHz 150)
  tCyc := BitVec.ofNat 32 (Config.ticksOfNs tickHz 400)
  pollInterval := BitVec.ofNat 32 (Config.ticksOfNs tickHz 10000)
  maxPolls := 500
  blindShort := BitVec.ofNat 32 (Config.ticksOfNs tickHz 100000)
  blindLong := BitVec.ofNat 32 (Config.ticksOfNs tickHz 5000000)
  initRepeat := 3
  initWait1 := BitVec.ofNat 32 (Config.ticksOfNs tickHz 4100000)
  initWait2 := BitVec.ofNat 32 (Config.ticksOfNs tickHz 100000)
  powerOnMs := 15
  bufSize := 256
  rowOffset0 := 0x00
  rowOffset1 := 0x40

/-- The default TICK_HZ, 100 ns a tick (R9). -/
def Config.defaultTickHz : Nat := 10000000

/-- R9's legal choices: INIT_REPEAT is 1 or 3. R9 bounds no other parameter; MAX_POLLS = 0 is assumption log 35. -/
def Params.legal (p : Params) : Bool := p.initRepeat == 1 || p.initRepeat == 3

/-- HAS_RW of the implementation: R9 gives it no default (OPEN, 92_eei_decisions.md D22). -/
opaque Config.hasRw : Bool

/-- The n-th unspecified u32: CNT at reset (R41), VAL after an error (R31), a working register after an operation (R34,
R35). -/
opaque Config.freeWord : Nat → Word

/-- The byte FB[k] of a frame with too few bits to hold it (FRAME_BITS below 40, which R9 allows and R48 does not speak of;
assumption log 33). -/
opaque Config.missingByte : Nat → Byte

/-- The n-th number of timer steps before a controller step, where no draw is scripted (R23). -/
opaque Config.freeTicks : Nat → Nat

/-- The n-th level of the sensor's drive, where no draw is scripted (R25, R60). -/
opaque Config.freeLevel : Nat → Bool

/-- The n-th value of the LCD data pins, where no draw is scripted (R135). -/
opaque Config.freePins : Nat → Byte

end Sys2Proof
end

