-- ==== Sys2Proof/Syntax.lean ====
section
/-! DEFINITION. The instructions: one constructor for each row of spec/opcode_table.json, 15 host operations
(spec/30_encoding.md R63) and 11 LCD bus transfers (R69 to R77); and the words they are read from, a CMD word of the call
port or a transfer of the LCD sequencer. -/

namespace Sys2Proof

/-- One row of the opcode table each. A single-bit operand is a Bool; the operands' widths are those of R62 and R64. -/
inductive Instr where
  /-- TMR.ELAPSED (R86). -/
  | tmrElapsed
  /-- TMR.RESET_WAIT (R87). Its tick operand is the register ARG. -/
  | tmrResetWait
  /-- SNS.READ (R98). -/
  | snsRead
  /-- LCD.INIT (R140). -/
  | lcdInit (cols : Byte) (f n dl : Bool)
  /-- LCD.SET_DISPLAY (R143). -/
  | lcdSetDisplay (d c b : Bool)
  /-- LCD.CLEAR (R144). -/
  | lcdClear
  /-- LCD.HOME (R145). -/
  | lcdHome
  /-- LCD.SET_ADDRESS (R146). `addr` is CMD[7:0], whose bit 7 is reserved (R62, R65). -/
  | lcdSetAddress (addr : Byte)
  /-- LCD.SET_CURSOR (R147). -/
  | lcdSetCursor (row col : Byte)
  /-- LCD.WRITE (R148). -/
  | lcdWrite (data : Byte)
  /-- LCD.WRITE_ROW (R149). The bytes are WBUF's. -/
  | lcdWriteRow (n : Byte)
  /-- LCD.READ (R151). -/
  | lcdRead
  /-- LCD.READ_ROW (R152). -/
  | lcdReadRow (n : Byte)
  /-- LCD.IS_BUSY (R153). -/
  | lcdIsBusy
  /-- LCD.GET_SETTINGS (R154). -/
  | lcdGetSettings
  /-- The transfer CLEAR_DISPLAY, 0b00000001 (R70). -/
  | busClearDisplay
  /-- The transfer RETURN_HOME, 0b0000001x (R71). `x` is the don't-care bit, 0 in every byte the block sends. -/
  | busReturnHome (x : Bool)
  /-- The transfer ENTRY_MODE_SET, 0b000001IS (R72). -/
  | busEntryModeSet (i s : Bool)
  /-- The transfer DISPLAY_CONTROL, 0b00001DCB (R73). -/
  | busDisplayControl (d c b : Bool)
  /-- The transfer FUNCTION_SET, 0b001LNF00 (R74). -/
  | busFunctionSet (dl n f : Bool)
  /-- The single-nibble cycle NIB3 (R74, R124). -/
  | busNib3
  /-- The single-nibble cycle NIB2 (R74, R124). -/
  | busNib2
  /-- The transfer SET_DDRAM_ADDRESS, 0b1AAAAAAA (R75). -/
  | busSetDdramAddress (a : BitVec 7)
  /-- The transfer BUSY_READ (R76, R126). Its byte is the controller's answer, not an operand. -/
  | busBusyRead
  /-- The transfer DATA_WRITE (R77, R125). -/
  | busDataWrite (data : Byte)
  /-- The transfer DATA_READ (R77, R127). Its byte is the controller's answer, not an operand. -/
  | busDataRead
  deriving DecidableEq, Repr

/-- A transfer as the LCD sequencer holds it: the kind that its (RS, RW) lines select and the byte or nibble it carries
(R69, R74). A read carries no byte of the block's. -/
inductive BusWord where
  /-- CMDW, a command write: RS = 0, RW = 0. -/
  | cmdw (b : Byte)
  /-- One CMDW cycle that carries a single nibble (R74, R124). -/
  | nib (n : BitVec 4)
  /-- BUSYR, a busy read: RS = 0, RW = 1. -/
  | busyr
  /-- DATW, a data write: RS = 1, RW = 0. -/
  | datw (b : Byte)
  /-- DATR, a data read: RS = 1, RW = 1. -/
  | datr
  deriving DecidableEq, Repr

/-- Where an instruction is read from: the call port's CMD register (R61) or the sequencer's next transfer (R69). -/
inductive Encoded where
  | cmd (w : Word)
  | bus (t : BusWord)
  deriving DecidableEq, Repr

end Sys2Proof
end

