-- ==== Sys2Proof/Machine/State.lean ====
section
/-! DEFINITION. The state of the block: every piece of state the spec names (spec/10_state.md R18 to R42) and the model's
own fields (the controller's remaining jobs, the host's coming actions, the agents' draws), all of it plain data; the reasons
a step can stop; and the state after reset (R41). -/

namespace Sys2Proof.Machine

/-- A byte buffer as a list of (index, byte) cells in one canonical form: indexes strictly rising, and no cell equal to
what an unlisted index reads as, which is 0 (assumption log 6). -/
abbrev Memory := List Host.Cell

/-- SNS_MODE (R24). -/
inductive SnsMode where
  /-- Input with the pull-up enabled. -/
  | inPu
  /-- Open-drain output. -/
  | outOd
  deriving DecidableEq, Repr

/-- DDIR, the direction of LCD_D[7:0] (R26). -/
inductive Dir where
  | out
  | inp
  deriving DecidableEq, Repr

/-- What DriveD and SampleD move: 8 bits in 8-bit mode, 4 bits on LCD_D[7:4] in 4-bit mode (R14, R52). -/
inductive DataVal where
  | byte (v : Byte)
  | nibble (v : BitVec 4)
  deriving DecidableEq, Repr

/-- Which part of the byte a read cycle collects: all of it in 8-bit mode, the high or the low nibble in 4-bit mode
(R49, R123). -/
inductive Lane where
  | full
  | high
  | low
  deriving DecidableEq, Repr

/-- The status codes (R159). -/
inductive Status where
  | ok
  | sensorBusy
  | ackTimeout
  | checksumMismatch
  | controllerTimeout
  | cursorOutOfBounds
  | notSupported
  | notInitialized
  | illegalOp
  | invalidConfig
  deriving DecidableEq, Repr

/-- An event of the pin-event log (R14, R39, R40, R178). -/
inductive Event where
  /-- TREAD(v). -/
  | tread (v : Word)
  /-- TRESET. -/
  | treset
  /-- DELAY_MS(m). -/
  | delayMs (m : Nat)
  /-- SNS_CFG(mode). -/
  | snsCfg (m : SnsMode)
  /-- SNS_DRIVE(v). -/
  | snsDrive (v : Bool)
  /-- SNS_SAMPLE(v). -/
  | snsSample (v : Bool)
  /-- RS(v). -/
  | rs (v : Bool)
  /-- RW(v). -/
  | rw (v : Bool)
  /-- E(v). -/
  | e (v : Bool)
  /-- DDIR(d). -/
  | ddir (d : Dir)
  /-- D(v). -/
  | d (v : DataVal)
  /-- DSAMPLE(v). -/
  | dsample (v : DataVal)
  /-- RESET. -/
  | reset
  deriving DecidableEq, Repr

/-- PHASE, the controller's position (R33). `lcdRun step` counts the controller steps of the running LCD operation; the
position inside a phase is the job list (assumption log 1). -/
inductive Phase where
  | idle
  | tmrWait
  | snsIdleCheck
  | snsRequest
  | snsAckLow
  | snsAckHigh
  | snsBitLow (i : Nat)
  | snsBitHigh (i : Nat)
  | snsDecode
  | lcdRun (step : Nat)
  deriving DecidableEq, Repr

/-- Where a measured pulse goes: an acknowledgement's duration is not stored (R101, R102); a bit's goes into LOW[I] or
HIGH[I] (R106). -/
inductive PulseTo where
  | discard
  | low
  | high
  deriving DecidableEq, Repr

/-- One job of the controller: a primitive of R14 (one event), a loop of such primitives, or a silent decision between
two of them. A job's meaning is `runJob`; a `transfer` is decoded and dispatched to its instruction. -/
inductive Job where
  /-- DelayMs(m) (R91). -/
  | delayMs (m : Nat)
  /-- CntReset() (R14). -/
  | cntReset
  /-- The loop of WaitTicks(n): CntRead() until the value is at least n (R87). -/
  | spin (n : Word)
  /-- The loop of TMR.RESET_WAIT (R87). -/
  | timerWait (ticks : Word)
  /-- v <- CntRead() of TMR.ELAPSED (R86). -/
  | timerRead
  /-- VAL <- v ; STATUS <- 0 of a timer operation (R86, R87). -/
  | timerEnd (v : Word)
  /-- SnsConfig(mode) (R24). -/
  | snsConfig (m : SnsMode)
  /-- SnsDrive(v) (R24). -/
  | snsDrive (v : Bool)
  /-- t0 <- CntRead() of R88 to R90. -/
  | snapT0
  /-- WaitForLevel(level, limit): the sample of its loop (R90). -/
  | awaitLevel (level : Bool) (limit : Word)
  /-- WaitForLevel(level, limit): the elapsed check after a sample at the other level (R90). -/
  | awaitCheck (level : Bool) (limit : Word)
  /-- MeasurePulse(level), or MeasurePulseBounded(level, limit): the sample of its loop (R88, R89). -/
  | pulse (level : Bool) (limit : Option Word) (dst : PulseTo)
  /-- MeasurePulseBounded: the elapsed check after a sample still at `level` (R89). -/
  | pulseCheck (level : Bool) (limit : Word) (dst : PulseTo)
  /-- The counter read after the first sample that differs, which gives the duration (R88, R89). -/
  | pulseEnd (limit : Option Word) (dst : PulseTo)
  /-- PHASE <- p. -/
  | enter (p : Phase)
  /-- The head of the loop `for I in 0..39` of bit reception (R106). -/
  | bits
  /-- I <- I + 1 (R106). -/
  | nextBit
  /-- FB <- DecodeFrame(HIGH) (R108). -/
  | assemble
  /-- PhaseValidate and PhaseOutput (R109, R110). -/
  | validate
  /-- SetRS(v). -/
  | setRS (v : Bool)
  /-- SetRW(v). -/
  | setRW (v : Bool)
  /-- SetDDir(d). -/
  | setDDir (d : Dir)
  /-- SetE(v). -/
  | setE (v : Bool)
  /-- DriveD(v). -/
  | drive (v : DataVal)
  /-- SampleD(). -/
  | sample (lane : Lane)
  /-- A transfer to issue: CmdWrite, NibbleCycle, DataWrite, BusyRead or DataRead (R124 to R127). -/
  | transfer (w : BusWord)
  /-- AC_SHADOW <- a (R131). -/
  | setAc (a : BitVec 7)
  /-- AC_SHADOW <- AC_SHADOW +7 1 (R131). -/
  | incAc
  /-- AC_SHADOW <- ac of the byte just read (R126, R131). -/
  | acFromRead
  /-- WaitReady(long) (R128, R130). -/
  | waitReady (long : Bool)
  /-- One poll of WaitReady: a busy read and its test (R128). -/
  | poll
  /-- The test of a poll's busy flag (R128). -/
  | pollTest
  /-- LCD.INIT's last assignments and its end (R140). -/
  | initEnd
  /-- SET_D, SET_C, SET_B <- D, C, B (R143). -/
  | setSettings (d c b : Bool)
  /-- a <- AC_SHADOW; m <- min(n, Remaining(a)); N_XFER <- m (R149). -/
  | rowCap (n : Byte)
  /-- The head of LCD.WRITE_ROW's loop at index i (R149). -/
  | writeNext (i : Nat)
  /-- The head of LCD.READ_ROW's loop at index i (R152). -/
  | readNext (i : Nat)
  /-- MemWrite(RBUF, i, 1, x) (R152). -/
  | storeRead (i : Nat)
  /-- LCD.READ after its DataRead: the byte x is kept, then WaitReady and the end (R151). -/
  | readEnd
  /-- LCD.IS_BUSY's end (R153). -/
  | busyEnd
  /-- LCD.GET_SETTINGS' end (R154). -/
  | settingsEnd
  /-- VAL <- v; STATUS <- (TOFLAG == 1 ? 4 : 0) (R136). -/
  | lcdEnd (v : Word)
  /-- raise E(), for an error E that leaves VAL unspecified: a primitive, and so a step of its own (R14, R161). -/
  | raise (st : Status)
  deriving DecidableEq, Repr

/-- What one operation gave the host: (STATUS, VAL, RBUF) (R39), as the call port moves it: STATUS zero-extended to a u32
(R50). -/
structure Result where
  status : Word
  val : Word
  rbuf : Memory
  deriving DecidableEq, Repr

/-- A run that RST has ended: its log, whose last event is RESET, and its results (R39, R178). -/
structure Run where
  log : List Event
  results : List Result
  deriving DecidableEq, Repr

/-- What a host can do to the block between two controller steps (R19, R20, R178). -/
inductive Input where
  /-- The host does nothing; the controller takes its step. -/
  | run
  /-- A write of CMD. -/
  | writeCmd (w : Word)
  /-- A write of ARG. -/
  | writeArg (v : Word)
  /-- A write of WBUF[i]. -/
  | writeWbuf (i : Nat) (v : Byte)
  /-- RST is asserted and released. -/
  | rst
  deriving DecidableEq, Repr

/-- The host call port (R19). -/
structure Port where
  cmd : Word
  arg : Word
  wbuf : Memory
  status : Byte
  val : Word
  rbuf : Memory
  opbusy : Bool
  deriving DecidableEq, Repr

/-- The sensor pin's registers SNS_MODE and SNS_DRV (R24). -/
structure SnsPin where
  mode : SnsMode
  drv : Bool
  deriving DecidableEq, Repr

/-- The LCD pin registers RS, RW, E, DDIR and DOUT (R26). -/
structure LcdPins where
  rs : Bool
  rw : Bool
  e : Bool
  ddir : Dir
  dout : Byte
  deriving DecidableEq, Repr

/-- The configuration registers CFG_DL, CFG_N, CFG_F, CFG_COLS and INIT_DONE (R27). -/
structure LcdConfig where
  dl : Bool
  n : Bool
  f : Bool
  cols : Byte
  initDone : Bool
  deriving DecidableEq, Repr

/-- The settings registers SET_D, SET_C and SET_B (R28). -/
structure Settings where
  d : Bool
  c : Bool
  b : Bool
  deriving DecidableEq, Repr

/-- The hidden working registers T0, POLLS, I, N_XFER (R34), LOW, HIGH and FB (R35), and the model's own `rx`, the byte x
that a read transfer collects (R123). LOW and HIGH hold FRAME_BITS durations and FB the bytes they make (R9, R35). -/
structure Work where
  t0 : Word
  polls : Nat
  i : Nat
  nXfer : Byte
  low : List Word
  high : List Word
  fb : List Byte
  rx : Byte
  deriving DecidableEq, Repr

/-- The working registers at reset, each of them 0, which R41 leaves unspecified (assumption log 5); LOW, HIGH and FB have the
entries that FRAME_BITS makes (assumption log 33). -/
def Work.reset (par : Params) : Work :=
  ⟨0, 0, 0, 0, List.replicate par.frameBits 0, List.replicate par.frameBits 0, List.replicate (par.frameBits / 8) 0, 0⟩

/-- The observation: the running log, the results so far, and the runs that RST has ended (R39, R178). -/
structure Obs where
  log : List Event
  results : List Result
  pastRuns : List Run
  deriving DecidableEq, Repr

/-- The draws of the external agents, oldest first: the number of timer steps before each step (R23), the level the
sensor drives at each sample (R25), the value of the LCD data pins at each sample (R135). An empty list is no end of the
draws: the next one is then a free value (assumption log 2). -/
structure Env where
  ticks : List Nat
  line : List Bool
  pins : List Byte
  deriving DecidableEq, Repr

/-- The state of the block and of what drives it. -/
structure State where
  /-- The parameters of R9. No step writes them. -/
  par : Params
  port : Port
  /-- CNT (R22). -/
  cnt : Word
  sns : SnsPin
  lcd : LcdPins
  cfg : LcdConfig
  set : Settings
  /-- AC_SHADOW (R29). -/
  ac : BitVec 7
  /-- TOFLAG (R32). -/
  toflag : Bool
  /-- PHASE (R33). -/
  phase : Phase
  work : Work
  obs : Obs
  /-- The controller's remaining jobs, its position inside PHASE (the model's own). -/
  todo : List Job
  /-- The host's coming actions (the model's own); when there is none, the host does nothing. -/
  inputs : List Input
  env : Env
  /-- The number of the next free value (the model's own). -/
  draws : Nat
  deriving DecidableEq, Repr

/-- Why the machine stops with a fault. -/
inductive Fault where
  /-- "host wrote the call port while an operation was running" (R20): raised by a write of CMD, ARG or WBUF while
  OPBUSY = 1. Safe: the spec gives the write no meaning. -/
  | hostWroteWhileBusy
  /-- An access to a byte of WBUF or RBUF that does not exist, its index being BUF_SIZE or more: raised by the host's write
  of such a byte and, where BUF_SIZE is below 256, by a row operation that runs past the buffer. Safe: R47 has no such byte
  (assumption log 34). -/
  | outsideBuffer
  deriving DecidableEq, Repr

/-- Why the machine refuses to go on. -/
inductive Refusal where
  /-- The instruction has no meaning in this model yet: raised by an arm of `exec`. Safe. -/
  | notModelled (mnemonic : String)
  /-- The sequencer holds a bus byte or nibble that the block never sends (R74, R78): raised by the fetch of a transfer.
  No operation issues one. Safe. -/
  | neverSent (w : BusWord)
  deriving DecidableEq, Repr

/-- The machine right after reset (R41, R177). CNT is a free value, as R41 has it drawn; HAS_RW is the implementation's;
every other register that R41 leaves unspecified is 0 (assumption log 5). -/
def State.reset : State where
  par := Config.paramsAt Config.defaultTickHz Config.hasRw
  port := ⟨0, 0, [], 0, 0, [], false⟩
  cnt := Config.freeWord 0
  sns := ⟨.inPu, true⟩
  lcd := ⟨false, false, false, .inp, 0⟩
  cfg := ⟨false, false, false, 0, false⟩
  set := ⟨false, false, false⟩
  ac := 0
  toflag := false
  phase := .idle
  work := Work.reset (Config.paramsAt Config.defaultTickHz Config.hasRw)
  obs := ⟨[], [], []⟩
  todo := []
  inputs := []
  env := ⟨[], [], []⟩
  draws := 1

end Sys2Proof.Machine
end

