-- ==== Sys2Proof/Machine/Flags.lean ====
section
/-! DEFINITION. The flag-like computations. The block has no condition codes (spec/10_state.md R32): what it decides on are
elapsed times against limits (spec/40_timer.md R84, R89, R90), the busy flag (spec/30_encoding.md R76), the bit and checksum
decisions of a frame (spec/41_sensor.md R107, R109) and TOFLAG at an operation's end (spec/43_lcd_ops.md R136). -/

namespace Sys2Proof.Machine

/-- How many values a read of CNT can give: 2^CNT_WIDTH (R22), and no more than a u32 has, since CntRead() returns one (R14,
R52; spec/92_eei_decisions.md D5: "a wider counter would have its elapsed value truncated anyway"). -/
def cntSpan (par : Params) : Nat := 2 ^ min par.cntWidth 32

/-- A count modulo 2^CNT_WIDTH: CNT "wraps at its bit width" (R22). For the default CNT_WIDTH = 32 it is the u32 itself
(assumption log 33). -/
def wrapCnt (par : Params) (v : Word) : Word := BitVec.ofNat 32 (v.toNat % cntSpan par)

/-- Elapsed(t0), given the counter's value now: unsigned subtraction modulo 2^32 (R84), 2^CNT_WIDTH for another width
(assumption log 33). -/
def elapsed (par : Params) (now t0 : Word) : Word := wrapCnt par (now - t0)

/-- The wait is over: CNT ≥ n, unsigned (R87). -/
def reached (now n : Word) : Bool := decide (n.toNat ≤ now.toNat)

/-- A measured or elapsed value is past its limit: unsigned `>`, so the limit itself passes (R89, R90). -/
def pastLimit (d limit : Word) : Bool := decide (limit.toNat < d.toNat)

/-- BitValue(h): 1 iff h > BIT_THRESHOLD, unsigned (R107). -/
def bitValue (threshold h : Word) : Bool := decide (threshold.toNat < h.toNat)

/-- FB[k]; a free value where the frame has too few bits for it (assumption log 33). -/
def frameAt (fb : List Byte) (k : Nat) : Byte := fb.getD k (Config.missingByte k)

/-- The checksum of a frame: (FB[0] + FB[1] + FB[2] + FB[3]) mod 256 (R109). -/
def checksum (fb : List Byte) : Byte := frameAt fb 0 + frameAt fb 1 + frameAt fb 2 + frameAt fb 3

/-- BF, bit 7 of a busy-read byte (R76). -/
def busyFlag (x : Byte) : Bool := x.getLsbD 7

/-- AC, bits 6..0 of a busy-read byte (R76). -/
def addressCounter (x : Byte) : BitVec 7 := x.extractLsb' 0 7

/-- STATUS at the end of an LCD operation: 4 if TOFLAG = 1, else 0 (R136). -/
def endStatus (toflag : Bool) : Status := if toflag then .controllerTimeout else .ok

end Sys2Proof.Machine
end

