-- ==== Sys2Proof/WellFormed.lean ====
section
/-! DEFINITION. Which terms of Instr have an encoding. The operands' types have the widths of their fields, so one check
remains: the address byte of LCD.SET_ADDRESS has its reserved bit 7 clear (spec/30_encoding.md R62, R65). Which values of an
encodable operand are LEGAL is each operation's own rule (R64), not part of this. -/

namespace Sys2Proof

/-- The term has an encoding: a format A7 byte has bit 7 clear ("low 7 bits = address", R65). -/
def Instr.wellFormed : Instr → Bool
  | .lcdSetAddress addr => !addr.getLsbD 7
  | .tmrElapsed | .tmrResetWait | .snsRead | .lcdInit .. | .lcdSetDisplay .. | .lcdClear | .lcdHome
  | .lcdSetCursor .. | .lcdWrite _ | .lcdWriteRow _ | .lcdRead | .lcdReadRow _ | .lcdIsBusy | .lcdGetSettings
  | .busClearDisplay | .busReturnHome _ | .busEntryModeSet .. | .busDisplayControl .. | .busFunctionSet ..
  | .busNib3 | .busNib2 | .busSetDdramAddress _ | .busBusyRead | .busDataWrite _ | .busDataRead => true

/-- An operation the host can write to CMD (R63), as against a transfer of the sequencer (R69). -/
def Instr.isHostOp : Instr → Bool
  | .tmrElapsed | .tmrResetWait | .snsRead | .lcdInit .. | .lcdSetDisplay .. | .lcdClear | .lcdHome
  | .lcdSetAddress _ | .lcdSetCursor .. | .lcdWrite _ | .lcdWriteRow _ | .lcdRead | .lcdReadRow _ | .lcdIsBusy
  | .lcdGetSettings => true
  | .busClearDisplay | .busReturnHome _ | .busEntryModeSet .. | .busDisplayControl .. | .busFunctionSet ..
  | .busNib3 | .busNib2 | .busSetDdramAddress _ | .busBusyRead | .busDataWrite _ | .busDataRead => false

end Sys2Proof
end

