-- ==== Sys2Proof/Decode.lean ====
section
/-! DEFINITION. Decoding, total, rejecting by name, and the encoder after it: the host operation word (spec/30_encoding.md
R61 to R66) and the transfers of the LCD bus (R69 to R78). -/

namespace Sys2Proof

/-- Why a word is no instruction. -/
inductive Reject where
  /-- CMD[31:24] is not in R63's map (R65). -/
  | unassignedOpc (opc : Byte)
  /-- A reserved bit of the format is 1 (R65). -/
  | reservedBit
  /-- A CMDW byte that the block never sends (R78). -/
  | byteNeverSent (b : Byte)
  /-- A nibble other than NIB3 and NIB2 (R74). -/
  | nibbleNeverSent (n : BitVec 4)
  deriving DecidableEq, Repr

/-- The four bytes of a CMD word: OPC = CMD[31:24], CMD[23:16], CMD[15:8], CMD[7:0] (R62). -/
def cmdOpc (w : Word) : Byte := w.extractLsb' 24 8
def cmdHigh (w : Word) : Byte := w.extractLsb' 16 8
def cmdMid (w : Word) : Byte := w.extractLsb' 8 8
def cmdLow (w : Word) : Byte := w.extractLsb' 0 8

/-- Accept `i` if every reserved bit of the word is 0 (R65). -/
def reservedZero (ok : Bool) (i : Instr) : Except Reject Instr := if ok then .ok i else .error .reservedBit

/-- Format N and format T: CMD[23:0] is reserved (R62). -/
def formatN (w : Word) (i : Instr) : Except Reject Instr :=
  reservedZero (cmdHigh w == 0 && cmdMid w == 0 && cmdLow w == 0) i

/-- Formats B8 and L: CMD[7:0] is the operand (R62). -/
def formatB8 (w : Word) (i : Byte → Instr) : Except Reject Instr :=
  reservedZero (cmdHigh w == 0 && cmdMid w == 0) (i (cmdLow w))

/-- Format A7: CMD[6:0] is the operand, CMD[7] is reserved (R62). -/
def formatA7 (w : Word) (i : Byte → Instr) : Except Reject Instr :=
  reservedZero (cmdHigh w == 0 && cmdMid w == 0 && !(cmdLow w).getLsbD 7) (i (cmdLow w))

/-- Format RC: CMD[15:8] is the row and CMD[7:0] the column (R62). -/
def formatRC (w : Word) (i : Byte → Byte → Instr) : Except Reject Instr :=
  reservedZero (cmdHigh w == 0) (i (cmdMid w) (cmdLow w))

/-- Bits 7..3 of a byte are 0 (formats DS and CFG, R62). -/
def upperFiveZero (b : Byte) : Bool := b.extractLsb' 3 5 == 0

/-- Format DS: CMD[2], CMD[1], CMD[0] are D, C, B (R62). -/
def formatDS (w : Word) (i : Bool → Bool → Bool → Instr) : Except Reject Instr :=
  reservedZero (cmdHigh w == 0 && cmdMid w == 0 && upperFiveZero (cmdLow w))
    (i ((cmdLow w).getLsbD 2) ((cmdLow w).getLsbD 1) ((cmdLow w).getLsbD 0))

/-- Format CFG: CMD[15:8] is COLS, CMD[2], CMD[1], CMD[0] are F, N, DL (R62). -/
def formatCFG (w : Word) (i : Byte → Bool → Bool → Bool → Instr) : Except Reject Instr :=
  reservedZero (cmdHigh w == 0 && upperFiveZero (cmdLow w))
    (i (cmdMid w) ((cmdLow w).getLsbD 2) ((cmdLow w).getLsbD 1) ((cmdLow w).getLsbD 0))

/-- A CMD word: R63's map of CMD[31:24], with the operand fields of R62 and the reserved bits of R65. -/
def decodeCmd (w : Word) : Except Reject Instr :=
  if cmdOpc w = 0x01 then formatN w .tmrElapsed
  else if cmdOpc w = 0x02 then formatN w .tmrResetWait
  else if cmdOpc w = 0x10 then formatN w .snsRead
  else if cmdOpc w = 0x20 then formatCFG w .lcdInit
  else if cmdOpc w = 0x21 then formatDS w .lcdSetDisplay
  else if cmdOpc w = 0x22 then formatN w .lcdClear
  else if cmdOpc w = 0x23 then formatN w .lcdHome
  else if cmdOpc w = 0x24 then formatA7 w .lcdSetAddress
  else if cmdOpc w = 0x25 then formatRC w .lcdSetCursor
  else if cmdOpc w = 0x26 then formatB8 w .lcdWrite
  else if cmdOpc w = 0x27 then formatB8 w .lcdWriteRow
  else if cmdOpc w = 0x28 then formatN w .lcdRead
  else if cmdOpc w = 0x29 then formatB8 w .lcdReadRow
  else if cmdOpc w = 0x2A then formatN w .lcdIsBusy
  else if cmdOpc w = 0x2B then formatN w .lcdGetSettings
  else .error (.unassignedOpc (cmdOpc w))

/-- A CMDW byte is identified by its highest set bit (R78): 7 set-address, 5 function set (with bits 1..0 zero, R74),
3 display control, 2 entry mode, 1 home, 0 clear. The shift (bit 4) and CGRAM (bit 6) commands and the byte 0 are never
sent. -/
def decodeCmdw (b : Byte) : Except Reject Instr :=
  if b.getLsbD 7 then .ok (.busSetDdramAddress (b.extractLsb' 0 7))
  else if b.getLsbD 6 then .error (.byteNeverSent b)
  else if b.getLsbD 5 then
    if b.getLsbD 1 || b.getLsbD 0 then .error (.byteNeverSent b)
    else .ok (.busFunctionSet (b.getLsbD 4) (b.getLsbD 3) (b.getLsbD 2))
  else if b.getLsbD 4 then .error (.byteNeverSent b)
  else if b.getLsbD 3 then .ok (.busDisplayControl (b.getLsbD 2) (b.getLsbD 1) (b.getLsbD 0))
  else if b.getLsbD 2 then .ok (.busEntryModeSet (b.getLsbD 1) (b.getLsbD 0))
  else if b.getLsbD 1 then .ok (.busReturnHome (b.getLsbD 0))
  else if b.getLsbD 0 then .ok .busClearDisplay
  else .error (.byteNeverSent b)

/-- A single-nibble cycle is NIB3 or NIB2 (R74). -/
def decodeNibble (n : BitVec 4) : Except Reject Instr :=
  if n = 3 then .ok .busNib3 else if n = 2 then .ok .busNib2 else .error (.nibbleNeverSent n)

/-- A transfer of the sequencer, by its kind (R69). -/
def decodeBus : BusWord → Except Reject Instr
  | .cmdw b => decodeCmdw b
  | .nib n => decodeNibble n
  | .busyr => .ok .busBusyRead
  | .datw b => .ok (.busDataWrite b)
  | .datr => .ok .busDataRead

/-- Either word. -/
def decode : Encoded → Except Reject Instr
  | .cmd w => decodeCmd w
  | .bus t => decodeBus t

/-- A CMD word of its four bytes (R62). -/
def cmdWord (opc high mid low : Byte) : Word := opc ++ high ++ mid ++ low

/-- The byte of three operand bits, bits 7..3 zero (formats DS and CFG, R62). -/
def lowBits (b2 b1 b0 : Bool) : Byte := 0#5 ++ BitVec.ofBool b2 ++ BitVec.ofBool b1 ++ BitVec.ofBool b0

/-- DISPLAY_CONTROL, 0b00001DCB (R73). -/
def displayControlByte (d c b : Bool) : Byte := 0b00001#5 ++ BitVec.ofBool d ++ BitVec.ofBool c ++ BitVec.ofBool b

/-- ENTRY_MODE_SET, 0b000001IS (R72). -/
def entryModeByte (i s : Bool) : Byte := 0b000001#6 ++ BitVec.ofBool i ++ BitVec.ofBool s

/-- RETURN_HOME, 0b0000001x (R71). -/
def returnHomeByte (x : Bool) : Byte := 0b0000001#7 ++ BitVec.ofBool x

/-- FUNCTION_SET, 0b001LNF00 (R74). -/
def functionSetByte (dl n f : Bool) : Byte :=
  0b001#3 ++ BitVec.ofBool dl ++ BitVec.ofBool n ++ BitVec.ofBool f ++ 0b00#2

/-- SET_DDRAM_ADDRESS, 0b1AAAAAAA (R75). -/
def setDdramByte (a : BitVec 7) : Byte := 0b1#1 ++ a

/-- The word of an instruction, written from R62, R63 and R70 to R77. -/
def encode : Instr → Encoded
  | .tmrElapsed => .cmd (cmdWord 0x01 0 0 0)
  | .tmrResetWait => .cmd (cmdWord 0x02 0 0 0)
  | .snsRead => .cmd (cmdWord 0x10 0 0 0)
  | .lcdInit cols f n dl => .cmd (cmdWord 0x20 0 cols (lowBits f n dl))
  | .lcdSetDisplay d c b => .cmd (cmdWord 0x21 0 0 (lowBits d c b))
  | .lcdClear => .cmd (cmdWord 0x22 0 0 0)
  | .lcdHome => .cmd (cmdWord 0x23 0 0 0)
  | .lcdSetAddress addr => .cmd (cmdWord 0x24 0 0 addr)
  | .lcdSetCursor row col => .cmd (cmdWord 0x25 0 row col)
  | .lcdWrite data => .cmd (cmdWord 0x26 0 0 data)
  | .lcdWriteRow n => .cmd (cmdWord 0x27 0 0 n)
  | .lcdRead => .cmd (cmdWord 0x28 0 0 0)
  | .lcdReadRow n => .cmd (cmdWord 0x29 0 0 n)
  | .lcdIsBusy => .cmd (cmdWord 0x2A 0 0 0)
  | .lcdGetSettings => .cmd (cmdWord 0x2B 0 0 0)
  | .busClearDisplay => .bus (.cmdw 0x01)
  | .busReturnHome x => .bus (.cmdw (returnHomeByte x))
  | .busEntryModeSet i s => .bus (.cmdw (entryModeByte i s))
  | .busDisplayControl d c b => .bus (.cmdw (displayControlByte d c b))
  | .busFunctionSet dl n f => .bus (.cmdw (functionSetByte dl n f))
  | .busNib3 => .bus (.nib 3)
  | .busNib2 => .bus (.nib 2)
  | .busSetDdramAddress a => .bus (.cmdw (setDdramByte a))
  | .busBusyRead => .bus .busyr
  | .busDataWrite data => .bus (.datw data)
  | .busDataRead => .bus .datr

/-- Where a table word of `nbits` bits stands (assumption log 10): up to 4 bits, a nibble of the sequencer; up to 8 bits,
a CMDW byte of the sequencer; else the CMD word. -/
def tableWord (nbits w : Nat) : Encoded :=
  if nbits ≤ 4 then .bus (.nib (BitVec.ofNat 4 w))
  else if nbits ≤ 8 then .bus (.cmdw (BitVec.ofNat 8 w))
  else .cmd (BitVec.ofNat 32 w)

/-- The instruction the decoder reads from a table word. -/
def decodeTableWord (nbits w : Nat) : Option Instr :=
  match decode (tableWord nbits w) with
  | .ok i => some i
  | .error _ => none

end Sys2Proof
end

