-- ==== Sys2Proof/Machine/Ops.lean ====
section
/-! DEFINITION. The named operations over the state: the byte buffers (spec/20_memory.md R47), the timer and the draws
(spec/10_state.md R22 to R25), the log (R39), the free values, ending an operation and raising a status
(spec/60_exceptions.md R161), and reset (spec/70_reset_and_hazards.md R177, R178). -/

namespace Sys2Proof.Machine

/-! ### The byte buffers -/

/-- What a byte that nothing has written reads as (assumption log 6). -/
def unwrittenByte : Byte := 0

/-- MemRead(buffer, i, 1) (R47). -/
def Memory.read : Memory → Nat → Byte
  | [], _ => unwrittenByte
  | (a, v) :: m, i => if a = i then v else Memory.read m i

/-- The buffer with a cell for index i put in its place, or none if the byte is the unwritten one. -/
def Memory.put (i : Nat) (v : Byte) (m : Memory) : Memory := if v = unwrittenByte then m else (i, v) :: m

/-- MemWrite(buffer, i, 1, v) (R47), keeping the canonical form. -/
def Memory.write : Memory → Nat → Byte → Memory
  | [], i, v => Memory.put i v []
  | (a, w) :: m, i, v =>
    if i < a then Memory.put i v ((a, w) :: m)
    else if i = a then Memory.put i v m
    else (a, w) :: Memory.write m i v

/-- The canonical form: indexes from `low` on, strictly rising, no cell that reads as unwritten. -/
def Memory.wfFrom (low : Nat) : Memory → Bool
  | [] => true
  | (a, v) :: m => decide (low ≤ a) && decide (v ≠ unwrittenByte) && Memory.wfFrom (a + 1) m

/-- The canonical form of a buffer. -/
def Memory.wf (m : Memory) : Bool := Memory.wfFrom 0 m

/-- Every cell is inside a buffer of `size` bytes (BUF_SIZE, R9, R47). -/
def Memory.within (size : Nat) (m : Memory) : Bool := m.all fun c => decide (c.1 < size)

/-! ### The log, the timer and the draws -/

/-- Append an event to the log (R39). -/
def emit (ev : Event) (s : State) : State := { s with obs.log := s.obs.log ++ [ev] }

/-- The next free u32, and the state in which the one after it is next. -/
def freeWord (s : State) : Word × State := (Config.freeWord s.draws, { s with draws := s.draws + 1 })

/-- The next draw of the timer agent: how many ticks pass before this step (R23). -/
def drawTicks (s : State) : Nat × State :=
  match s.env.ticks with
  | k :: rest => (k, { s with env.ticks := rest })
  | [] => (Config.freeTicks s.draws, { s with draws := s.draws + 1 })

/-- The next draw of the sensor agent: the level it drives at this sample (R25, R60). -/
def drawLevel (s : State) : Bool × State :=
  match s.env.line with
  | v :: rest => (v, { s with env.line := rest })
  | [] => (Config.freeLevel s.draws, { s with draws := s.draws + 1 })

/-- The next draw of the LCD controller agent: LCD_D[7:0] at this sample (R135). -/
def drawPins (s : State) : Byte × State :=
  match s.env.pins with
  | v :: rest => (v, { s with env.pins := rest })
  | [] => (Config.freePins s.draws, { s with draws := s.draws + 1 })

/-- The timer's one step: CNT <- CNT +32 1, wrapping at its width (R22). -/
def tick (s : State) : State := { s with cnt := wrapCnt s.par (s.cnt + 1) }

/-- `k` steps of the timer at once (R22, R23); `Laws` proves it is `tick` k times. -/
def ticks (k : Nat) (s : State) : State := { s with cnt := wrapCnt s.par (s.cnt + BitVec.ofNat 32 k) }

/-- The timer agent moves: some number of ticks passes (R23). -/
def advanceTimer (s : State) : State := ticks (drawTicks s).1 (drawTicks s).2

/-- CntRead() (R14): the value of CNT, and the event. -/
def cntRead (s : State) : Word × State := (s.cnt, emit (.tread s.cnt) s)

/-- CntReset() (R14). -/
def cntReset (s : State) : State := emit .treset { s with cnt := 0 }

/-- SnsRead() (R14, R25): 0 while the block itself pulls the line low, else what the sensor drives. -/
def snsRead (s : State) : Bool × State :=
  if s.sns.mode = .outOd ∧ s.sns.drv = false then (false, emit (.snsSample false) s)
  else ((drawLevel s).1, emit (.snsSample (drawLevel s).1) (drawLevel s).2)

/-! ### The jobs -/

/-- Put jobs before the controller's remaining ones. -/
def push (js : List Job) (s : State) : State := { s with todo := js ++ s.todo }

/-- Start an operation's state machine: its first phase and its jobs (R18, R33). -/
def load (p : Phase) (js : List Job) (s : State) : State := { s with phase := p, todo := js }

/-! ### Ending an operation -/

/-- The code of a status (R159). -/
def Status.code : Status → Byte
  | .ok => 0
  | .sensorBusy => 1
  | .ackTimeout => 2
  | .checksumMismatch => 3
  | .controllerTimeout => 4
  | .cursorOutOfBounds => 5
  | .notSupported => 6
  | .notInitialized => 7
  | .illegalOp => 8
  | .invalidConfig => 9

/-- zext_32 of a byte (R12). -/
def zextByte (v : Byte) : Word := v.setWidth 32

/-- What the host reads from the port: STATUS as a u32, zero-extended, VAL as it is, and the bytes of RBUF (R19, R50). -/
def Port.result (p : Port) : Result := ⟨zextByte p.status, p.val, p.rbuf⟩

/-- The end of an operation: STATUS and VAL are written, PHASE <- IDLE, OPBUSY <- 0 (R19, R161); the observation gains the
result as the host reads it (R39, R50). DESIGN CHOICE: all of it in one step of its own, after the operation's last primitive
(assumption log 17 and 31). -/
def conclude (st : Status) (v : Word) (s : State) : State :=
  { s with
    port.status := st.code, port.val := v, port.opbusy := false, phase := .idle, todo := [],
    obs.results := s.obs.results ++ [⟨zextByte st.code, v, s.port.rbuf⟩] }

/-- `raise E()` (R161): the shared operation that takes an error. VAL is left unspecified, a free value (R31). It is one
primitive of the controller (R14): the job `Job.raise`. -/
def raise (st : Status) (s : State) : State := conclude st (freeWord s).1 (freeWord s).2

/-- `raise E(info)` (R161): an error that carries a VAL, ChecksumMismatch alone (R109). -/
def raiseWith (st : Status) (info : Word) (s : State) : State := conclude st info s

/-- `n` free values, from number `k` on. -/
def freeWords (k n : Nat) : List Word := (List.range n).map fun j => Config.freeWord (k + j)

/-- There is nothing to return from: after any status the next operation runs from IDLE (R167). What an operation leaves
unspecified behind it is a free value: the sensor's working registers (R34, R35), -/
def forgetSensor (s : State) : State :=
  { s with
    work.t0 := Config.freeWord s.draws
    work.i := (Config.freeWord (s.draws + 1)).toNat % (s.par.frameBits + 1)
    work.low := freeWords (s.draws + 2) s.par.frameBits
    work.high := freeWords (s.draws + 2 + s.par.frameBits) s.par.frameBits
    work.fb := (freeWords (s.draws + 2 + 2 * s.par.frameBits) (s.par.frameBits / 8)).map (·.setWidth 8)
    draws := s.draws + 2 + 2 * s.par.frameBits + s.par.frameBits / 8 }

/-- TOFLAG, once an LCD operation has ended (spec/93_implementation_defined.md I5), -/
def forgetToflag (s : State) : State :=
  { s with toflag := (Config.freeWord s.draws).getLsbD 0, draws := s.draws + 1 }

/-- and with it the LCD operations' working registers (R34): POLLS keeps its range 0..MAX_POLLS. -/
def forgetLcd (s : State) : State :=
  { s with
    work.polls := (Config.freeWord s.draws).toNat % (s.par.maxPolls + 1)
    work.nXfer := (Config.freeWord (s.draws + 1)).setWidth 8
    work.rx := (Config.freeWord (s.draws + 2)).setWidth 8
    toflag := (Config.freeWord (s.draws + 3)).getLsbD 0
    draws := s.draws + 4 }

/-- What an operation that ends with an error leaves unspecified behind it: the sensor's working registers after a run-time
error of SNS.READ (R34, R35), TOFLAG after a failed check of an LCD operation (assumption log 21), nothing after an illegal
word (R65). ChecksumMismatch is raised with its info, by the validation itself (R109). -/
def forgetAfter : Status → State → State
  | .sensorBusy, s | .ackTimeout, s => forgetSensor s
  | .cursorOutOfBounds, s | .notSupported, s | .notInitialized, s | .invalidConfig, s => forgetToflag s
  | .ok, s | .checksumMismatch, s | .controllerTimeout, s | .illegalOp, s => s

/-- The point of a raise is reached: "No further primitive of the operation runs" but the raise (R161, R162). -/
def abort (st : Status) (s : State) : State := { s with todo := [.raise st] }

/-! ### Reset and the call port -/

/-- RST (R177, R178): the event RESET ends the run's log, and every piece of block state has its reset value. What is
outside the block stays: the wiring, the agents' coming draws, the host's coming actions, the ended runs (R180). DESIGN
CHOICE: R178 states the event RESET and the end of the log for a reset during an operation; an RST while OPBUSY = 0 does the
same here (assumption log 15). -/
def applyReset (s : State) : State :=
  { State.reset with
    par := s.par
    cnt := wrapCnt s.par (Config.freeWord s.draws)
    work := Work.reset s.par
    obs := ⟨[], [], s.obs.pastRuns ++ [⟨s.obs.log ++ [.reset], s.obs.results⟩]⟩
    inputs := s.inputs
    env := s.env
    draws := s.draws + 1 }

/-- A write of CMD that the block accepts: OPBUSY <- 1 (R19). -/
def accept (w : Word) (s : State) : State := { s with port.cmd := w, port.opbusy := true }

/-- A write of CMD with an illegal word: IllegalOp is raised by the controller's next step (R14, R65). R33 names no PHASE for it;
DESIGN CHOICE: LCD_RUN(0) (assumption log 31). -/
def rejectWord (w : Word) (s : State) : State := abort .illegalOp { accept w s with phase := .lcdRun 0 }

/-- A write of ARG (R19). -/
def writeArg (v : Word) (s : State) : State := { s with port.arg := v }

/-- A write of WBUF[i] (R19, R47). -/
def writeWbuf (i : Nat) (v : Byte) (s : State) : State := { s with port.wbuf := s.port.wbuf.write i v }

/-- Count a controller step of LCD_RUN(step) (R33). -/
def Phase.next : Phase → Phase
  | .lcdRun k => .lcdRun (k + 1)
  | p => p

end Sys2Proof.Machine
end

