-- ==== Sys2Proof/Machine/Operands.lean ====
section
/-! DEFINITION. The operand forms: cursor addresses and row lengths (spec/20_memory.md R46; spec/43_lcd_ops.md R141, R150),
the layouts of VAL (spec/41_sensor.md R109, R110; spec/43_lcd_ops.md R153, R154), the frame's assembly (R108), and the nibbles
of a 4-bit transfer (spec/20_memory.md R49). -/

namespace Sys2Proof.Machine

/-- ROW_OFFSET[row] (R9, R46): rows beyond the second do not exist. -/
def rowOffset (par : Params) (row : Byte) : Byte := if row = 0 then par.rowOffset0 else par.rowOffset1

/-- addr(row, col) = ROW_OFFSET[row] + col, in u8 (R46). -/
def cursorAddr (par : Params) (row col : Byte) : Byte := rowOffset par row + col

/-- ROWS = CFG_N + 1 (R27). -/
def rows (n : Bool) : Nat := if n then 2 else 1

/-- A row of `cols` cells from `offset` on lies in the 7-bit address space. -/
def rowFits (offset cols : Byte) : Bool := decide (offset.toNat + cols.toNat ≤ 0x80)

/-- ConfigLegal(N, COLS) (R141): COLS ≥ 1, and "exactly those" bounds "under which every in-bounds (row, col) has addr(row,
col) = ROW_OFFSET[row] + col ≤ 0x7F". With ROW_OFFSET = 0x00, 0x40 they are COLS ≤ 128 for one row and 64 for two
(assumption log 33). -/
def configLegal (par : Params) (n : Bool) (cols : Byte) : Bool :=
  decide (1 ≤ cols.toNat) && rowFits par.rowOffset0 cols && (!n || rowFits par.rowOffset1 cols)

/-- The cursor position is inside the configured geometry (R147). -/
def cursorInBounds (cfg : LcdConfig) (row col : Byte) : Bool :=
  decide (row.toNat < rows cfg.n) && decide (col.toNat < cfg.cols.toNat)

/-- The cells from a to the end of the row of `cols` cells from `offset` on, if a is in that row. -/
def remainingIn (offset cols : Byte) (a : BitVec 7) : Option Nat :=
  if offset.toNat ≤ a.toNat ∧ a.toNat < offset.toNat + cols.toNat then some (offset.toNat + cols.toNat - a.toNat) else none

/-- Remaining(a): the cells from a to the end of its row, 0 when a is in no row (R150). R150's 0 and 0x40 are ROW_OFFSET's
values (assumption log 33). -/
def remaining (par : Params) (cfg : LcdConfig) (a : BitVec 7) : Nat :=
  match remainingIn par.rowOffset0 cfg.cols a with
  | some r => r
  | none => if cfg.n then (remainingIn par.rowOffset1 cfg.cols a).getD 0 else 0

/-- The bytes LCD.WRITE_ROW writes: min(n, Remaining(a)) (R149). -/
def rowCount (par : Params) (cfg : LcdConfig) (n : Byte) (a : BitVec 7) : Nat := min n.toNat (remaining par cfg a)

/-- v[7:4] (R49). -/
def highNibble (v : Byte) : BitVec 4 := v.extractLsb' 4 4

/-- v[3:0] (R49). -/
def lowNibble (v : Byte) : BitVec 4 := v.extractLsb' 0 4

/-- The VAL of a ChecksumMismatch: VAL[15:8] computed, VAL[7:0] received, VAL[31:16] = 0 (R109). -/
def mismatchVal (computed received : Byte) : Word := 0#16 ++ computed ++ received

/-- HUM = FB[0], FB[1] and TEMP = FB[2], FB[3], high byte first (R48). -/
def humidity (fb : List Byte) : BitVec 16 := frameAt fb 0 ++ frameAt fb 1
def temperature (fb : List Byte) : BitVec 16 := frameAt fb 2 ++ frameAt fb 3

/-- The VAL of a good frame: VAL[31:16] = HUM, VAL[15:0] = TEMP (R110). -/
def frameVal (fb : List Byte) : Word := humidity fb ++ temperature fb

/-- FB[k]: the eight bits 8k..8k+7, the first received in bit 7 (R108). -/
def frameByte (threshold : Word) (high : List Word) (k : Nat) : Byte :=
  (List.range 8).foldl
    (fun b j => (b <<< 1) ||| (BitVec.ofBool (bitValue threshold (high.getD (8 * k + j) 0))).setWidth 8) 0

/-- DecodeFrame(HIGH) (R108): a byte for each eight of the frame's bits, five of them with FRAME_BITS = 40. -/
def decodeFrame (threshold : Word) (bits : Nat) (high : List Word) : List Byte :=
  (List.range (bits / 8)).map (frameByte threshold high)

/-- The VAL of LCD.GET_SETTINGS: VAL[31] = INIT_DONE, VAL[23:16] = COLS, VAL[10:8] = F, N, DL, VAL[2:0] = D, C, B (R154). -/
def settingsVal (cfg : LcdConfig) (set : Settings) : Word :=
  BitVec.ofBool cfg.initDone ++ 0#7 ++ cfg.cols ++ 0#5 ++ BitVec.ofBool cfg.f ++ BitVec.ofBool cfg.n ++
    BitVec.ofBool cfg.dl ++ 0#5 ++ BitVec.ofBool set.d ++ BitVec.ofBool set.c ++ BitVec.ofBool set.b

end Sys2Proof.Machine
end

