-- ==== Sys2Proof/Machine/Sequencer.lean ====
section
/-! DEFINITION. The LCD bus sequencer's programs: the bus cycle, the transfer and the command step as lists of jobs
(spec/42_lcd_bus.md R122 to R127, R132), and the waits and measurements that other programs use (spec/40_timer.md R87 to
R90). -/

namespace Sys2Proof.Machine

/-- WaitTicks(n): CntReset(), then CntRead() until the value is at least n (R87). -/
def waitTicks (n : Word) : List Job := [.cntReset, .spin n]

/-- SetRW(rw), when there is an RW pin (R122). -/
def setRwIfPresent (par : Params) (rw : Bool) : List Job := if par.hasRw then [.setRW rw] else []

/-- What comes before enable in a bus cycle: RS, settle, RW and direction, settle (R122). -/
def beforeEnable (par : Params) (rs rw : Bool) : List Job :=
  [.setRS rs] ++ waitTicks par.tSp ++ setRwIfPresent par rw ++ [.setDDir (if rw then .inp else .out)] ++
    waitTicks par.tSp

/-- BusCycle(rs, 0, v) (R122). -/
def busCycleWrite (par : Params) (rs : Bool) (v : DataVal) : List Job :=
  beforeEnable par rs false ++ [.setE true, .drive v] ++ waitTicks par.tPw ++ [.setE false] ++ waitTicks par.tCyc

/-- BusCycle(rs, 1, -), whose sample goes into the lane of the byte being read (R122). -/
def busCycleRead (par : Params) (rs : Bool) (lane : Lane) : List Job :=
  beforeEnable par rs true ++ [.setE true] ++ waitTicks par.tPw ++ [.sample lane, .setE false] ++ waitTicks par.tCyc

/-- XferWrite(rs, b): one cycle in 8-bit mode, else the high and then the low nibble (R123). -/
def xferWrite (par : Params) (dl rs : Bool) (b : Byte) : List Job :=
  if dl then busCycleWrite par rs (.byte b)
  else busCycleWrite par rs (.nibble (highNibble b)) ++ busCycleWrite par rs (.nibble (lowNibble b))

/-- XferRead(rs): one cycle in 8-bit mode, else the high and then the low nibble (R123). -/
def xferRead (par : Params) (dl rs : Bool) : List Job :=
  if dl then busCycleRead par rs .full else busCycleRead par rs .high ++ busCycleRead par rs .low

/-- NibbleCycle(n): the nibble alone in 4-bit mode, the byte of n and 0x0 in 8-bit mode (R124). -/
def nibbleCycle (par : Params) (dl : Bool) (n : BitVec 4) : List Job :=
  busCycleWrite par false (if dl then .byte (n ++ 0#4) else .nibble n)

/-- Command(b, long): the command write with its AC_SHADOW update, then WaitReady(long) (R137). -/
def command (b : Byte) (long : Bool) : List Job := [.transfer (.cmdw b), .waitReady long]

/-- MeasurePulse(level) or MeasurePulseBounded(level, limit) (R88, R89). -/
def measurePulse (level : Bool) (limit : Option Word) (dst : PulseTo) : List Job := [.snapT0, .pulse level limit dst]

/-- WaitForLevel(level, limit) (R90). -/
def waitForLevel (level : Bool) (limit : Word) : List Job := [.snapT0, .awaitLevel level limit]

end Sys2Proof.Machine
end

