-- ==== Sys2Proof/Machine/Jobs.lean ====
section
/-! DEFINITION. What each job of the controller does: the primitives of spec/00_scope.md R14, the loops of spec/40_timer.md
R87 to R90, the decisions of the sensor protocol (spec/41_sensor.md R99 to R110), of WaitReady (spec/42_lcd_bus.md R128 to
R130) and of the LCD operations (spec/43_lcd_ops.md). The job has been taken from the front of `todo`; a loop that goes on
puts it back. -/

namespace Sys2Proof.Machine

/-! ### Timer -/

/-- One read of WaitTicks' loop (R87). -/
def runSpin (n : Word) (s : State) : State :=
  if reached s.cnt n then (cntRead s).2 else push [.spin n] (cntRead s).2

/-- v <- CntRead(), which the operation's end then writes to VAL (R86, R87). -/
def runTimerRead (s : State) : State := push [.timerEnd s.cnt] (cntRead s).2

/-- One read of TMR.RESET_WAIT's loop: the first value that is at least `ticks` is VAL (R87). -/
def runTimerWait (ticks : Word) (s : State) : State :=
  if reached s.cnt ticks then runTimerRead s else push [.timerWait ticks] (cntRead s).2

/-- VAL <- v ; STATUS <- 0 (R86, R87). -/
def runTimerEnd (v : Word) (s : State) : State := conclude .ok v s

/-- t0 <- CntRead() (R88 to R90). -/
def runSnapT0 (s : State) : State := { (cntRead s).2 with work.t0 := s.cnt }

/-! ### Sensor -/

/-- SnsConfig(mode) (R24). -/
def runSnsConfig (m : SnsMode) (s : State) : State := emit (.snsCfg m) { s with sns.mode := m }

/-- SnsDrive(v) (R24). -/
def runSnsDrive (v : Bool) (s : State) : State := emit (.snsDrive v) { s with sns.drv := v }

/-- WaitForLevel's sample: a sample equal to `level` ends the wait (R90). -/
def runAwaitLevel (level : Bool) (limit : Word) (s : State) : State :=
  if (snsRead s).1 = level then (snsRead s).2 else push [.awaitCheck level limit] (snsRead s).2

/-- WaitForLevel's elapsed check. Its TIMEOUT is SensorBusy, since the idle check alone calls it (R90, R99); the raise comes
after the deciding read (R162). -/
def runAwaitCheck (level : Bool) (limit : Word) (s : State) : State :=
  if pastLimit (elapsed s.par s.cnt s.work.t0) limit then abort .sensorBusy (cntRead s).2
  else push [.awaitLevel level limit] (cntRead s).2

/-- The measuring loops' sample (R88, R89). -/
def runPulse (level : Bool) (limit : Option Word) (dst : PulseTo) (s : State) : State :=
  if (snsRead s).1 = level then
    match limit with
    | none => push [.pulse level none dst] (snsRead s).2
    | some l => push [.pulseCheck level l dst] (snsRead s).2
  else push [.pulseEnd limit dst] (snsRead s).2

/-- MeasurePulseBounded's elapsed check; its TIMEOUT is AckTimeout wherever it is called (R89, R101, R102, R104), raised after
the deciding read (R162). -/
def runPulseCheck (level : Bool) (limit : Word) (dst : PulseTo) (s : State) : State :=
  if pastLimit (elapsed s.par s.cnt s.work.t0) limit then abort .ackTimeout (cntRead s).2
  else push [.pulse level (some limit) dst] (cntRead s).2

/-- Entry i of a pulse buffer is set to d; the buffer grows by one entry where i is the next after its last, as the loop of
R106 fills it. -/
def storeAt (buf : List Word) (i : Nat) (d : Word) : List Word := buf.take i ++ d :: buf.drop (i + 1)

/-- Keep a measured duration (R101, R102, R106). -/
def storePulse (dst : PulseTo) (d : Word) (s : State) : State :=
  match dst with
  | .discard => s
  | .low => { s with work.low := storeAt s.work.low s.work.i d }
  | .high => { s with work.high := storeAt s.work.high s.work.i d }

/-- The duration is past its limit, where it has one (R89). -/
def pastOptLimit (d : Word) : Option Word → Bool
  | none => false
  | some l => pastLimit d l

/-- The counter read that ends a measurement (R88, R89); a raise comes after it (R162). -/
def runPulseEnd (limit : Option Word) (dst : PulseTo) (s : State) : State :=
  if pastOptLimit (elapsed s.par s.cnt s.work.t0) limit then abort .ackTimeout (cntRead s).2
  else storePulse dst (elapsed s.par s.cnt s.work.t0) (cntRead s).2

/-- The jobs of one bit: its low pulse and then its high pulse (R105, R106). -/
def bitJobs (i : Nat) (limit : Option Word) : List Job :=
  [.enter (.snsBitLow i)] ++ measurePulse false limit .low ++ [.enter (.snsBitHigh i)] ++
    measurePulse true limit .high ++ [.nextBit, .bits]

/-- The head of bit reception's loop: FRAME_BITS bits (R9, R106). -/
def runBits (s : State) : State :=
  if s.work.i < s.par.frameBits then push (bitJobs s.work.i s.par.bitPulseLimit) s else s

/-- FB <- DecodeFrame(HIGH) (R98, R108). -/
def runAssemble (s : State) : State := { s with work.fb := decodeFrame s.par.bitThreshold s.par.frameBits s.work.high }

/-- PhaseValidate and PhaseOutput (R109, R110). -/
def runValidate (s : State) : State :=
  if checksum s.work.fb = frameAt s.work.fb 4 then conclude .ok (frameVal s.work.fb) (forgetSensor s)
  else raiseWith .checksumMismatch (mismatchVal (checksum s.work.fb) (frameAt s.work.fb 4)) (forgetSensor s)

/-! ### LCD pins -/

/-- SetRS(v) (R14, R26). -/
def runSetRS (v : Bool) (s : State) : State := emit (.rs v) { s with lcd.rs := v }

/-- SetRW(v) (R14, R26). -/
def runSetRW (v : Bool) (s : State) : State := emit (.rw v) { s with lcd.rw := v }

/-- SetDDir(d) (R14, R26). -/
def runSetDDir (d : Dir) (s : State) : State := emit (.ddir d) { s with lcd.ddir := d }

/-- SetE(v) (R14, R26). -/
def runSetE (v : Bool) (s : State) : State := emit (.e v) { s with lcd.e := v }

/-- What DriveD leaves in DOUT: all of it, or DOUT[7:4] alone (R26, R134). -/
def driven (old : Byte) : DataVal → Byte
  | .byte v => v
  | .nibble n => n ++ lowNibble old

/-- DriveD(v) (R14, R26). -/
def runDrive (v : DataVal) (s : State) : State := emit (.d v) { s with lcd.dout := driven s.lcd.dout v }

/-- The value SampleD returns: the eight pins, or LCD_D[7:4] (R134). -/
def sampled (pins : Byte) : Lane → DataVal
  | .full => .byte pins
  | .high | .low => .nibble (highNibble pins)

/-- The byte being read, with the sample in its lane: `{first nibble, second nibble}` (R49). -/
def collected (rx pins : Byte) : Lane → Byte
  | .full => pins
  | .high => highNibble pins ++ lowNibble rx
  | .low => highNibble rx ++ highNibble pins

/-- SampleD() (R14, R122, R134). -/
def runSample (lane : Lane) (s : State) : State :=
  emit (.dsample (sampled (drawPins s).1 lane))
    { (drawPins s).2 with work.rx := collected s.work.rx (drawPins s).1 lane }

/-! ### AC_SHADOW and WaitReady -/

/-- AC_SHADOW <- a (R131). -/
def runSetAc (a : BitVec 7) (s : State) : State := { s with ac := a }

/-- AC_SHADOW <- AC_SHADOW +7 1 (R131). -/
def runIncAc (s : State) : State := { s with ac := s.ac + 1 }

/-- AC_SHADOW <- ac, the value read (R126, R131). -/
def runAcFromRead (s : State) : State := { s with ac := addressCounter s.work.rx }

/-- WaitReady(long): poll the busy flag when there is an RW pin, else a fixed delay (R128, R130). -/
def runWaitReady (long : Bool) (s : State) : State :=
  if s.par.hasRw then push [.poll] { s with work.polls := 0 }
  else push (waitTicks (if long then s.par.blindLong else s.par.blindShort)) s

/-- One poll: BusyRead(), then its test (R128). -/
def runPoll (s : State) : State := push [.transfer .busyr, .pollTest] s

/-- The test of a poll (R128, R129): ready ends the wait; the MAX_POLLS-th busy answer sets TOFLAG and ends it. DESIGN CHOICE:
with MAX_POLLS = 0, of which R128's text and its pseudocode say different things, it is the pseudocode that holds, so that the
first busy answer ends the wait (assumption log 35). -/
def runPollTest (s : State) : State :=
  if busyFlag s.work.rx then
    if s.par.maxPolls ≤ s.work.polls + 1 then { s with work.polls := s.work.polls + 1, toflag := true }
    else push (waitTicks s.par.pollInterval ++ [.poll]) { s with work.polls := s.work.polls + 1 }
  else s

/-! ### The LCD operations' decisions and ends -/

/-- The epilogue of an LCD operation: VAL <- v; STATUS <- (TOFLAG == 1 ? 4 : 0) (R136). -/
def runLcdEnd (v : Word) (s : State) : State := conclude (endStatus s.toflag) v (forgetLcd s)

/-- LCD.INIT's end (R140). -/
def runInitEnd (s : State) : State := runLcdEnd 0 { s with set := ⟨false, false, false⟩, cfg.initDone := true }

/-- SET_D, SET_C, SET_B <- D, C, B (R143). -/
def runSetSettings (d c b : Bool) (s : State) : State := { s with set := ⟨d, c, b⟩ }

/-- N_XFER <- min(n, Remaining(AC_SHADOW)) (R149). -/
def runRowCap (n : Byte) (s : State) : State :=
  { s with work.nXfer := BitVec.ofNat 8 (rowCount s.par s.cfg n s.ac) }

/-- LCD.WRITE_ROW's loop at index i (R149). -/
def runWriteNext (i : Nat) (s : State) : State :=
  if i < s.work.nXfer.toNat then
    push [.transfer (.datw (s.port.wbuf.read i)), .waitReady false, .writeNext (i + 1)] s
  else runLcdEnd (zextByte s.work.nXfer) s

/-- LCD.READ_ROW's loop at index i (R152). -/
def runReadNext (i : Nat) (s : State) : State :=
  if i < s.work.nXfer.toNat then
    push [.transfer .datr, .storeRead i, .waitReady false, .readNext (i + 1)] s
  else runLcdEnd (zextByte s.work.nXfer) s

/-- MemWrite(RBUF, i, 1, x) (R152). -/
def runStoreRead (i : Nat) (s : State) : State := { s with port.rbuf := s.port.rbuf.write i s.work.rx }

/-- LCD.READ keeps its byte over the wait, whose busy reads are bytes of their own (R151). -/
def runReadEnd (s : State) : State := push [.waitReady false, .lcdEnd (zextByte s.work.rx)] s

/-- LCD.IS_BUSY's end: VAL[7] = BF, VAL[6:0] = AC, STATUS 0 (R153). -/
def runBusyEnd (s : State) : State := conclude .ok (zextByte s.work.rx) (forgetLcd s)

/-- LCD.GET_SETTINGS' end: VAL <- the cached configuration and settings; STATUS <- 0 (R154). -/
def runSettingsEnd (s : State) : State := conclude .ok (settingsVal s.cfg s.set) (forgetToflag s)

/-- `raise E()` as the controller's step (R14, R161). -/
def runRaise (st : Status) (s : State) : State := raise st (forgetAfter st s)

/-- The byte of WBUF or RBUF that a job accesses, if it accesses one (R47, R149, R152). -/
def bufferIndex (s : State) : Job → Option Nat
  | .writeNext i => if i < s.work.nXfer.toNat then some i else none
  | .storeRead i => some i
  | _ => none

/-- A job would access a byte that its buffer does not have: not with BUF_SIZE = 256, since a length is a u8 (R47;
assumption log 34). -/
def outsideBuffer (s : State) (j : Job) : Bool :=
  match bufferIndex s j with
  | some i => decide (s.par.bufSize ≤ i)
  | none => false

/-- What a job does. A transfer is not run here but fetched (`fetch`), so it stays where it is. -/
def runJob : Job → State → State
  | .delayMs m, s => emit (.delayMs m) s
  | .cntReset, s => cntReset s
  | .spin n, s => runSpin n s
  | .timerWait t, s => runTimerWait t s
  | .timerRead, s => runTimerRead s
  | .timerEnd v, s => runTimerEnd v s
  | .snsConfig m, s => runSnsConfig m s
  | .snsDrive v, s => runSnsDrive v s
  | .snapT0, s => runSnapT0 s
  | .awaitLevel level limit, s => runAwaitLevel level limit s
  | .awaitCheck level limit, s => runAwaitCheck level limit s
  | .pulse level limit dst, s => runPulse level limit dst s
  | .pulseCheck level limit dst, s => runPulseCheck level limit dst s
  | .pulseEnd limit dst, s => runPulseEnd limit dst s
  | .enter p, s => { s with phase := p }
  | .bits, s => runBits s
  | .nextBit, s => { s with work.i := s.work.i + 1 }
  | .assemble, s => runAssemble s
  | .validate, s => runValidate s
  | .setRS v, s => runSetRS v s
  | .setRW v, s => runSetRW v s
  | .setDDir d, s => runSetDDir d s
  | .setE v, s => runSetE v s
  | .drive v, s => runDrive v s
  | .sample lane, s => runSample lane s
  | .transfer w, s => push [.transfer w] s
  | .setAc a, s => runSetAc a s
  | .incAc, s => runIncAc s
  | .acFromRead, s => runAcFromRead s
  | .waitReady long, s => runWaitReady long s
  | .poll, s => runPoll s
  | .pollTest, s => runPollTest s
  | .initEnd, s => runInitEnd s
  | .setSettings d c b, s => runSetSettings d c b s
  | .rowCap n, s => runRowCap n s
  | .writeNext i, s => runWriteNext i s
  | .readNext i, s => runReadNext i s
  | .storeRead i, s => runStoreRead i s
  | .readEnd, s => runReadEnd s
  | .busyEnd, s => runBusyEnd s
  | .settingsEnd, s => runSettingsEnd s
  | .lcdEnd v, s => runLcdEnd v s
  | .raise st, s => runRaise st s

end Sys2Proof.Machine
end

