-- ==== Sys2Proof/Machine/Timer.lean ====
section
/-! DEFINITION. The timer's host operations (spec/40_timer.md R86, R87). A meaning runs in the step that accepts the CMD word;
the operation's further steps are its jobs. -/

namespace Sys2Proof.Machine

/-- What a meaning answers. -/
abbrev Answer := Host.Outcome State Fault Refusal

/-- TMR.ELAPSED: v <- CntRead(); VAL <- v; STATUS <- 0 (R86). R33 names one phase for the timer's operations, TMR_WAIT
(assumption log 31). -/
def execTmrElapsed (s : State) : Answer := .next (load .tmrWait [.timerRead] s)

/-- TMR.RESET_WAIT: CntReset(), then the loop of reads that ends at the first value ≥ ARG (R87). -/
def execTmrResetWait (s : State) : Answer := .next (load .tmrWait [.cntReset, .timerWait s.port.arg] s)

end Sys2Proof.Machine
end

