-- ==== Sys2Proof/Machine/LcdBus.lean ====
section
/-! DEFINITION. The LCD bus transfers, one meaning each (spec/30_encoding.md R70 to R77): the bus cycles of the byte
(spec/42_lcd_bus.md R122 to R127) and then its AC_SHADOW update (R131), put before the operation's remaining jobs. The wait
that follows a transfer is the operation's own (R132). -/

namespace Sys2Proof.Machine

/-- CmdWrite(b) = XferWrite(0, b), and what follows it in the same step of R125 (R131). -/
def issueCommand (b : Byte) (after : List Job) (s : State) : Answer :=
  .next (push (xferWrite s.par s.cfg.dl false b ++ after) s)

/-- XferRead(rs), and what follows it. With HAS_RW = 0 a read does not exist (R69): it raises NotSupported, "read requested
on a write-only bus configuration" (R159; assumption log 12). -/
def issueRead (rs : Bool) (after : List Job) (s : State) : Answer :=
  if s.par.hasRw then .next (push (xferRead s.par s.cfg.dl rs ++ after) s)
  else .next (abort .notSupported (forgetLcd s))

/-- CLEAR_DISPLAY (R70): AC_SHADOW <- 0 (R131). -/
def execBusClearDisplay (s : State) : Answer := issueCommand 0x01 [.setAc 0] s

/-- RETURN_HOME (R71): AC_SHADOW <- 0 (R131). -/
def execBusReturnHome (x : Bool) (s : State) : Answer := issueCommand (returnHomeByte x) [.setAc 0] s

/-- ENTRY_MODE_SET (R72). -/
def execBusEntryModeSet (i sh : Bool) (s : State) : Answer := issueCommand (entryModeByte i sh) [] s

/-- DISPLAY_CONTROL (R73). -/
def execBusDisplayControl (d c b : Bool) (s : State) : Answer := issueCommand (displayControlByte d c b) [] s

/-- FUNCTION_SET (R74). -/
def execBusFunctionSet (dl n f : Bool) (s : State) : Answer := issueCommand (functionSetByte dl n f) [] s

/-- NIB3 (R74, R124). -/
def execBusNib3 (s : State) : Answer := .next (push (nibbleCycle s.par s.cfg.dl 0x3) s)

/-- NIB2 (R74, R124). -/
def execBusNib2 (s : State) : Answer := .next (push (nibbleCycle s.par s.cfg.dl 0x2) s)

/-- SET_DDRAM_ADDRESS (R75): AC_SHADOW <- a (R131). -/
def execBusSetDdramAddress (a : BitVec 7) (s : State) : Answer := issueCommand (setDdramByte a) [.setAc a] s

/-- BUSY_READ: BusyRead(), AC_SHADOW <- ac (R76, R126, R131). -/
def execBusBusyRead (s : State) : Answer := issueRead false [.acFromRead] s

/-- DATA_WRITE: DataWrite(data), AC_SHADOW <- AC_SHADOW +7 1 (R77, R125, R131). -/
def execBusDataWrite (data : Byte) (s : State) : Answer :=
  .next (push (xferWrite s.par s.cfg.dl true data ++ [.incAc]) s)

/-- DATA_READ: DataRead(), AC_SHADOW <- AC_SHADOW +7 1 (R77, R127, R131). -/
def execBusDataRead (s : State) : Answer := issueRead true [.incAc] s

end Sys2Proof.Machine
end

