-- ==== Sys2Proof/Machine/LcdOps.lean ====
section
/-! DEFINITION. The LCD's host operations (spec/43_lcd_ops.md R136 to R154). A meaning makes the operation's checks, in the
order of spec/60_exceptions.md R166 and before any event, and starts its state machine: the jobs of its pseudocode. -/

namespace Sys2Proof.Machine

/-! ### Common structure -/

/-- TOFLAG <- 0, every LCD operation's first assignment (R136). -/
def clearToflag (s : State) : State := { s with toflag := false }

/-- Start an LCD operation's jobs: PHASE <- LCD_RUN (R33). -/
def lcdJobs (js : List Job) (s : State) : State := load (.lcdRun 0) js s

/-- A check of an LCD operation fails (R163): the raise is the only primitive that the operation makes (R14, R162). -/
def lcdFail (st : Status) (s : State) : State := lcdJobs [.raise st] s

/-- The prologue of every LCD operation but LCD.INIT: TOFLAG <- 0, then NotInitialized if INIT_DONE = 0 (R136, R138). -/
def lcdPrologue (body : State → State) (s : State) : Answer :=
  if s.cfg.initDone then .next (body (clearToflag s)) else .next (lcdFail .notInitialized (clearToflag s))

/-- NotSupported if HAS_RW = 0 (R151 to R153). -/
def needsRw (body : State → State) (s : State) : State := if s.par.hasRw then body s else lcdFail .notSupported s

/-! ### Initialisation -/

/-- The wait after the k-th function set: INIT_WAIT1 after the first, INIT_WAIT2 after the others (R140). -/
def initWait (par : Params) (k : Nat) : Word := if k = 1 then par.initWait1 else par.initWait2

/-- The function sets of an 8-bit bus: INIT_REPEAT of them, with a wait between any two (R140). `left` counts those not yet
listed, and the next is number `k`. -/
def initSets8 (par : Params) (fs : Byte) : (left : Nat) → (k : Nat) → List Job
  | 0, _ => []
  | 1, _ => [.transfer (.cmdw fs)]
  | left + 2, k => [.transfer (.cmdw fs)] ++ waitTicks (initWait par k) ++ initSets8 par fs (left + 1) (k + 1)

/-- The NIB3 cycles of a 4-bit bus: INIT_REPEAT of them, each with its wait (R140). -/
def initSets4 (par : Params) : (left : Nat) → (k : Nat) → List Job
  | 0, _ => []
  | left + 1, k => [.transfer (.nib 0x3)] ++ waitTicks (initWait par k) ++ initSets4 par left (k + 1)

/-- LCD.INIT up to its final FUNCTION_SET and the wait after it (R140). -/
def initFunctionSet (par : Params) (dl : Bool) (fs : Byte) : List Job :=
  if dl then initSets8 par fs par.initRepeat 1 ++ [.waitReady false]
  else initSets4 par par.initRepeat 1 ++ [.transfer (.nib 0x2)] ++ waitTicks par.initWait2 ++
    [.transfer (.cmdw fs), .waitReady false]

/-- LCD.INIT's state machine (R140). -/
def initJobs (par : Params) (dl : Bool) (fs : Byte) : List Job :=
  [.delayMs par.powerOnMs] ++ initFunctionSet par dl fs ++
    command 0x08 false ++ command 0x01 true ++ command 0x06 false ++ [.initEnd]

/-- LCD.INIT (R139 to R142): InvalidConfig before any event; else INIT_DONE <- 0, the configuration, and the sequence. -/
def execLcdInit (cols : Byte) (f n dl : Bool) (s : State) : Answer :=
  if configLegal s.par n cols then
    .next (lcdJobs (initJobs s.par dl (functionSetByte dl n f))
      { clearToflag s with cfg := ⟨dl, n, f, cols, false⟩ })
  else .next (lcdFail .invalidConfig (clearToflag s))

/-! ### Display commands -/

/-- LCD.SET_DISPLAY (R143). -/
def execLcdSetDisplay (d c b : Bool) (s : State) : Answer :=
  lcdPrologue (lcdJobs (command (displayControlByte d c b) false ++ [.setSettings d c b, .lcdEnd 0])) s

/-- LCD.CLEAR (R144). -/
def execLcdClear (s : State) : Answer := lcdPrologue (lcdJobs (command 0x01 true ++ [.lcdEnd 0])) s

/-- LCD.HOME (R145). -/
def execLcdHome (s : State) : Answer := lcdPrologue (lcdJobs (command 0x02 true ++ [.lcdEnd 0])) s

/-! ### Addressing -/

/-- LCD.SET_ADDRESS (R146). An address byte with bit 7 set has no encoding; as an illegal word it gives IllegalOp
(R65; assumption log 20). -/
def execLcdSetAddress (addr : Byte) (s : State) : Answer :=
  if addr.getLsbD 7 then .next (lcdFail .illegalOp s)
  else lcdPrologue (lcdJobs (command (0x80 ||| addr) false ++ [.lcdEnd 0])) s

/-- LCD.SET_CURSOR (R147): CursorOutOfBounds before any event, never clamped. -/
def execLcdSetCursor (row col : Byte) (s : State) : Answer :=
  lcdPrologue (fun s =>
    if cursorInBounds s.cfg row col then lcdJobs (command (0x80 ||| cursorAddr s.par row col) false ++ [.lcdEnd 1]) s
    else lcdFail .cursorOutOfBounds s) s

/-! ### Data transfer -/

/-- LCD.WRITE (R148). -/
def execLcdWrite (data : Byte) (s : State) : Answer :=
  lcdPrologue (lcdJobs [.transfer (.datw data), .waitReady false, .lcdEnd 1]) s

/-- LCD.WRITE_ROW (R149): with an RW pin, a busy-flag query first. -/
def execLcdWriteRow (n : Byte) (s : State) : Answer :=
  lcdPrologue (fun s =>
    lcdJobs ((if s.par.hasRw then [.waitReady false] else []) ++ [.rowCap n, .writeNext 0]) s) s

/-- LCD.READ (R151). -/
def execLcdRead (s : State) : Answer := lcdPrologue (needsRw (lcdJobs [.transfer .datr, .readEnd])) s

/-- LCD.READ_ROW (R152): N_XFER <- n. -/
def execLcdReadRow (n : Byte) (s : State) : Answer :=
  lcdPrologue (needsRw fun s => lcdJobs [.readNext 0] { s with work.nXfer := n }) s

/-! ### Status and settings queries -/

/-- LCD.IS_BUSY (R153). -/
def execLcdIsBusy (s : State) : Answer := lcdPrologue (needsRw (lcdJobs [.transfer .busyr, .busyEnd])) s

/-- LCD.GET_SETTINGS (R154): a pure local read. -/
def execLcdGetSettings (s : State) : Answer :=
  lcdPrologue (lcdJobs [.settingsEnd]) s

end Sys2Proof.Machine
end

