-- ==== Sys2Proof/Machine/Sensor.lean ====
section
/-! DEFINITION. SNS.READ: the seven phases of the sensor protocol as the controller's jobs (spec/41_sensor.md R94 to R110). -/

namespace Sys2Proof.Machine

/-- Phase 1, idle check (R99). -/
def idleCheckJobs (par : Params) : List Job := [.snsConfig .inPu] ++ waitForLevel true par.idleTimeout

/-- Phase 2, request (R100). -/
def requestJobs (par : Params) : List Job :=
  [.enter .snsRequest, .snsConfig .outOd, .snsDrive false, .delayMs par.reqHoldMs, .snsDrive true, .snsConfig .inPu] ++
    waitTicks par.postReleaseWait

/-- Phases 3a and 3b, acknowledgement (R101, R102). -/
def ackJobs (par : Params) : List Job :=
  [.enter .snsAckLow] ++ measurePulse false (some par.ackLimit) .discard ++
    [.enter .snsAckHigh] ++ measurePulse true (some par.ackLimit) .discard

/-- Phases 4 to 7: bit reception, assembly, validation and output (R98, R106 to R110). -/
def receiveJobs : List Job := [.bits, .assemble, .enter .snsDecode, .validate]

/-- SNS.READ (R98). -/
def execSnsRead (s : State) : Answer :=
  .next (load .snsIdleCheck (idleCheckJobs s.par ++ requestJobs s.par ++ ackJobs s.par ++ receiveJobs)
    { s with work.i := 0 })

end Sys2Proof.Machine
end

