-- ==== Sys2Proof/Machine/Dispatch.lean ====
section
/-! DEFINITION. One arm for each instruction: its meaning. -/

namespace Sys2Proof.Machine

def exec (i : Instr) (s : State) : Host.Outcome State Fault Refusal :=
  match i with
  | .tmrElapsed => Sys2Proof.Machine.execTmrElapsed s
  | .tmrResetWait => Sys2Proof.Machine.execTmrResetWait s
  | .snsRead => Sys2Proof.Machine.execSnsRead s
  | .lcdInit cols f n dl => Sys2Proof.Machine.execLcdInit cols f n dl s
  | .lcdSetDisplay d c b => Sys2Proof.Machine.execLcdSetDisplay d c b s
  | .lcdClear => Sys2Proof.Machine.execLcdClear s
  | .lcdHome => Sys2Proof.Machine.execLcdHome s
  | .lcdSetAddress addr => Sys2Proof.Machine.execLcdSetAddress addr s
  | .lcdSetCursor row col => Sys2Proof.Machine.execLcdSetCursor row col s
  | .lcdWrite data => Sys2Proof.Machine.execLcdWrite data s
  | .lcdWriteRow n => Sys2Proof.Machine.execLcdWriteRow n s
  | .lcdRead => Sys2Proof.Machine.execLcdRead s
  | .lcdReadRow n => Sys2Proof.Machine.execLcdReadRow n s
  | .lcdIsBusy => Sys2Proof.Machine.execLcdIsBusy s
  | .lcdGetSettings => Sys2Proof.Machine.execLcdGetSettings s
  | .busClearDisplay => Sys2Proof.Machine.execBusClearDisplay s
  | .busReturnHome x => Sys2Proof.Machine.execBusReturnHome x s
  | .busEntryModeSet i' s' => Sys2Proof.Machine.execBusEntryModeSet i' s' s
  | .busDisplayControl d c b => Sys2Proof.Machine.execBusDisplayControl d c b s
  | .busFunctionSet dl n f => Sys2Proof.Machine.execBusFunctionSet dl n f s
  | .busNib3 => Sys2Proof.Machine.execBusNib3 s
  | .busNib2 => Sys2Proof.Machine.execBusNib2 s
  | .busSetDdramAddress a => Sys2Proof.Machine.execBusSetDdramAddress a s
  | .busBusyRead => Sys2Proof.Machine.execBusBusyRead s
  | .busDataWrite data => Sys2Proof.Machine.execBusDataWrite data s
  | .busDataRead => Sys2Proof.Machine.execBusDataRead s

end Sys2Proof.Machine
end

