-- ==== Sys2Proof/Machine/Fetch.lean ====
section
/-! DEFINITION. What a step finds to do: the timer moves, then the host's next action, and where the host does nothing the
controller's next job (spec/00_scope.md R8; spec/10_state.md R19, R20, R23). It finds an instruction in two places: the CMD
word the host writes, and the next transfer of a running LCD operation. -/

namespace Sys2Proof.Machine

/-- What a step does: run an instruction in a state, or nothing but the outcome given. -/
inductive Fetched where
  | instr (i : Instr) (s : State)
  | took (o : Host.Outcome State Fault Refusal)

/-- A job is taken from the front of the controller's list: the rest remains, and LCD_RUN's step is counted (R33). -/
def takeJob (rest : List Job) (s : State) : State := { s with todo := rest, phase := s.phase.next }

/-- A job is taken and run, unless it would access a byte that does not exist (R47). -/
def jobStep (j : Job) (rest : List Job) (s : State) : Host.Outcome State Fault Refusal :=
  if outsideBuffer s j then .fault .outsideBuffer else .next (runJob j (takeJob rest s))

/-- A running operation with no job left is over; no operation ends so, for each ends in `conclude` (assumption log 27). -/
def release (s : State) : State := { s with port.opbusy := false, phase := .idle }

/-- The block controller's part of a step: nothing while IDLE (R179), else its next job (R14, R33). -/
def fetchJob (s : State) : Fetched :=
  if s.port.opbusy then
    match s.todo with
    | [] => .took (.next (release s))
    | .transfer w :: rest =>
      match decodeBus w with
      | .ok i => .instr i (takeJob rest s)
      | .error _ => .took (.refused (.neverSent w))
    | j :: rest => .took (jobStep j rest s)
  else .took (.next s)

/-- A write of CMD while OPBUSY = 0: the operation it encodes, or IllegalOp (R19, R65). -/
def fetchCmd (w : Word) (s : State) : Fetched :=
  match decodeCmd w with
  | .ok i => .instr i (accept w s)
  | .error _ => .took (.next (rejectWord w s))

/-- A write of the call port, which is the host's fault while OPBUSY = 1 (R20). -/
def hostWrite (s : State) (f : Fetched) : Fetched := if s.port.opbusy then .took (.fault .hostWroteWhileBusy) else f

/-- A write of WBUF[i]; a byte that does not exist is the host's fault (R19, R47). -/
def fetchWbuf (i : Nat) (v : Byte) (s : State) : Fetched :=
  if i < s.par.bufSize then .took (.next (writeWbuf i v s)) else .took (.fault .outsideBuffer)

/-- The action of the host, if any, or the controller's next job. -/
def fetchInput (s : State) : Fetched :=
  match s.inputs with
  | [] => fetchJob s
  | .run :: rest => fetchJob { s with inputs := rest }
  | .writeCmd w :: rest => hostWrite s (fetchCmd w { s with inputs := rest })
  | .writeArg v :: rest => hostWrite s (.took (.next (writeArg v { s with inputs := rest })))
  | .writeWbuf i v :: rest => hostWrite s (fetchWbuf i v { s with inputs := rest })
  | .rst :: rest => .took (.next (applyReset { s with inputs := rest }))

/-- What a step does in a state: the timer moves first (R23). -/
def fetch (s : State) : Fetched := fetchInput (advanceTimer s)

/-- Where the instruction of a table word stands so that the next step fetches it: a CMD word is what the host writes to an
idle call port; a transfer is the next job of a running LCD operation. -/
def placeWord (e : Encoded) (s : State) : State :=
  match e with
  | .cmd w =>
    { s with port.opbusy := false, phase := .idle, todo := [], inputs := .writeCmd w :: s.inputs }
  | .bus t =>
    { s with port.opbusy := true, phase := .lcdRun 0, todo := .transfer t :: s.todo, inputs := .run :: s.inputs }

end Sys2Proof.Machine
end

