-- ==== Sys2Proof/Machine/Step.lean ====
section
/-! DEFINITION. One step of the block and of what drives it, and how a test places an instruction. -/

namespace Sys2Proof.Machine

/-- One step: the timer moves, then the host acts or the controller takes its next job; an instruction found on the way is
run by `exec`. -/
def step (s : State) : Host.Outcome State Fault Refusal :=
  match fetch s with
  | .instr i t => exec i t
  | .took o => o

/-- The state whose next step fetches and runs the instruction of a table word (assumption log 11). -/
def State.withFetchWord (s : State) (nbits w : Nat) : State := placeWord (tableWord nbits w) s

end Sys2Proof.Machine
end

