-- ==== Sys2Proof/Machine/Assembler.lean ====
section
/-! DEFINITION. The assembler syntax and the pseudo-operations of the host's operations (spec/30_encoding.md R67, R68). No step
of the block uses it. -/

namespace Sys2Proof.Machine

/-- A piece of a line: a mnemonic or a number as its characters, a comma, or a character literal as its code. -/
inductive Token where
  | word (cs : List Char)
  | comma
  | chr (n : Nat)
  deriving DecidableEq, Repr

/-- The word collected so far (its characters in reverse), if there is one. -/
def flushWord (acc : List Char) : List Token := if acc.isEmpty then [] else [.word acc.reverse]

/-- The tokens of a line; spaces separate words (R67). -/
def lexLine : List Char → List Char → List Token
  | [], acc => flushWord acc
  | '\'' :: c :: '\'' :: rest, acc => flushWord acc ++ [.chr c.toNat] ++ lexLine rest []
  | c :: rest, acc =>
    if c = ' ' then flushWord acc ++ lexLine rest []
    else if c = ',' then flushWord acc ++ [.comma] ++ lexLine rest []
    else lexLine rest (c :: acc)

/-- The value of a digit in a base up to 16. -/
def digitValue (base : Nat) (c : Char) : Option Nat :=
  let n := c.toNat
  let v := if 48 ≤ n ∧ n ≤ 57 then n - 48 else if 97 ≤ n ∧ n ≤ 102 then n - 87 else if 65 ≤ n ∧ n ≤ 70 then n - 55 else 99
  if v < base then some v else none

/-- A number's digits, most significant first. -/
def digitsValue (base : Nat) : List Char → Nat → Option Nat
  | [], acc => some acc
  | c :: cs, acc =>
    match digitValue base c with
    | some v => digitsValue base cs (acc * base + v)
    | none => none

/-- A number: decimal, or hexadecimal with 0x before it (R67). -/
def numberValue : List Char → Option Nat
  | [] => none
  | ['0', 'x'] => none
  | '0' :: 'x' :: cs => digitsValue 16 cs 0
  | c :: cs => digitsValue 10 (c :: cs) 0

/-- An operand: a number, or a character literal, which stands for its ASCII code (R67). DESIGN CHOICE: a literal that has no
ASCII code is no operand (assumption log 25). -/
def operandValue : Token → Option Nat
  | .word cs => numberValue cs
  | .chr n => if n < 128 then some n else none
  | .comma => none

/-- The operands of a line, separated by commas (R67). -/
def operandValues : List Token → Option (List Nat)
  | [] => some []
  | [t] => (operandValue t).map fun v => [v]
  | t :: .comma :: t' :: rest =>
    match operandValue t, operandValues (t' :: rest) with
    | some v, some vs => some (v :: vs)
    | _, _ => none
  | _ :: _ => none

/-- The mnemonics of R63 and the pseudo-operations of R68, as a line spells them. -/
inductive Mnemonic where
  | tmrElapsed | tmrResetWait | snsRead | lcdInit | lcdSetDisplay | lcdClear | lcdHome | lcdSetAddress | lcdSetCursor
  | lcdWrite | lcdWriteRow | lcdRead | lcdReadRow | lcdIsBusy | lcdGetSettings
  | tmrReset | tmrDelayUs | lcdDisplayOff | lcdDisplayOn
  deriving DecidableEq, Repr

/-- How each is spelled (R63, R68). -/
def spelling : List (String × Mnemonic) :=
  [("TMR.ELAPSED", .tmrElapsed), ("TMR.RESET_WAIT", .tmrResetWait), ("SNS.READ", .snsRead), ("LCD.INIT", .lcdInit),
   ("LCD.SET_DISPLAY", .lcdSetDisplay), ("LCD.CLEAR", .lcdClear), ("LCD.HOME", .lcdHome),
   ("LCD.SET_ADDRESS", .lcdSetAddress), ("LCD.SET_CURSOR", .lcdSetCursor), ("LCD.WRITE", .lcdWrite),
   ("LCD.WRITE_ROW", .lcdWriteRow), ("LCD.READ", .lcdRead), ("LCD.READ_ROW", .lcdReadRow), ("LCD.IS_BUSY", .lcdIsBusy),
   ("LCD.GET_SETTINGS", .lcdGetSettings)] ++
  [("TMR.RESET", .tmrReset), ("TMR.DELAY_US", .tmrDelayUs), ("LCD.DISPLAY_OFF", .lcdDisplayOff),
   ("LCD.DISPLAY_ON", .lcdDisplayOn)]

/-- The mnemonic a word spells. -/
def mnemonicOf (cs : List Char) : Option Mnemonic :=
  (spelling.find? fun p => p.1.toList == cs).map Prod.snd

/-- A single-bit operand. -/
def bitOperand : Nat → Option Bool
  | 0 => some false
  | 1 => some true
  | _ => none

/-- A u8 operand. -/
def byteOperand (n : Nat) : Option Byte := if n < 256 then some (BitVec.ofNat 8 n) else none

/-- LCD.INIT's operands: bus width 8 or 4 gives DL, rows 1 or 2 gives N, font 8 or 10 gives F (R67). -/
def busWidthOperand : Nat → Option Bool
  | 8 => some true
  | 4 => some false
  | _ => none
def rowsOperand : Nat → Option Bool
  | 1 => some false
  | 2 => some true
  | _ => none
def fontOperand : Nat → Option Bool
  | 8 => some false
  | 10 => some true
  | _ => none

/-- What a line asks of the host: the operation, and the ticks to write to ARG first where the operation reads ARG. -/
structure HostCall where
  op : Instr
  arg : Option Word
  deriving DecidableEq, Repr

/-- An operation that reads no ARG. -/
def plainCall (i : Instr) : Option HostCall := some ⟨i, none⟩

/-- TMR.RESET_WAIT with its ticks, legal when they fit in u32 (R62, R68). -/
def waitCall (ticks : Nat) : Option HostCall :=
  if ticks < 2 ^ 32 then some ⟨.tmrResetWait, some (BitVec.ofNat 32 ticks)⟩ else none

/-- The operation of a mnemonic and its operands (R67), a pseudo-operation expanded (R68). -/
def callOf (tickHz : Nat) : Mnemonic → List Nat → Option HostCall
  | .tmrElapsed, [] => plainCall .tmrElapsed
  | .tmrResetWait, [ticks] => waitCall ticks
  | .snsRead, [] => plainCall .snsRead
  | .lcdInit, [w, r, f, c] => do
    plainCall (.lcdInit (← byteOperand c) (← fontOperand f) (← rowsOperand r) (← busWidthOperand w))
  | .lcdSetDisplay, [d, c, b] => do plainCall (.lcdSetDisplay (← bitOperand d) (← bitOperand c) (← bitOperand b))
  | .lcdClear, [] => plainCall .lcdClear
  | .lcdHome, [] => plainCall .lcdHome
  | .lcdSetAddress, [a] => if a < 128 then plainCall (.lcdSetAddress (BitVec.ofNat 8 a)) else none
  | .lcdSetCursor, [r, c] => do plainCall (.lcdSetCursor (← byteOperand r) (← byteOperand c))
  | .lcdWrite, [b] => do plainCall (.lcdWrite (← byteOperand b))
  | .lcdWriteRow, [n] => do plainCall (.lcdWriteRow (← byteOperand n))
  | .lcdRead, [] => plainCall .lcdRead
  | .lcdReadRow, [n] => do plainCall (.lcdReadRow (← byteOperand n))
  | .lcdIsBusy, [] => plainCall .lcdIsBusy
  | .lcdGetSettings, [] => plainCall .lcdGetSettings
  | .tmrReset, [] => waitCall 0
  | .tmrDelayUs, [u] => waitCall (Config.ticksOfNs tickHz (1000 * u))
  | .lcdDisplayOff, [] => plainCall (.lcdSetDisplay false false false)
  | .lcdDisplayOn, [] => plainCall (.lcdSetDisplay true false false)
  | _, _ => none

/-- A line's tokens: a mnemonic and its operands (R67). -/
def assembleTokens (tickHz : Nat) : List Token → Option HostCall
  | .word m :: rest =>
    match mnemonicOf m, operandValues rest with
    | some k, some vs => callOf tickHz k vs
    | _, _ => none
  | _ => none

/-- A line of R67's syntax. -/
def assemble (tickHz : Nat) (line : String) : Option HostCall := assembleTokens tickHz (lexLine line.toList [])

end Sys2Proof.Machine
end

