-- ==== Sys2Proof/Machine/HostUnits.lean ====
section
/-! DEFINITION. The engineering units the host computes from a frame's VAL (spec/41_sensor.md R111, R115): the binary32 value
nearest to raw/10, ties to even, as its 32 bits. No step of the block uses it: the block has no floating point (R110). -/

namespace Sys2Proof.Machine

/-- `k` with 2^(k-4) ≤ raw/10 < 2^(k-3), for raw ≥ 1: the binary exponent of raw/10 is k - 4. -/
def unitsExponent (raw : Nat) : Nat := Nat.log2 (16 * raw / 10)

/-- raw/10 scaled so that its significand is an integer in [2^23, 2^24), over 10. -/
def unitsScaled (raw : Nat) : Nat := raw * 2 ^ (27 - unitsExponent raw)

/-- num/10 rounded to the nearest integer, ties to even. -/
def roundTenth (num : Nat) : Nat :=
  if 5 < num % 10 ∨ (num % 10 = 5 ∧ (num / 10) % 2 = 1) then num / 10 + 1 else num / 10

/-- The binary32 bits of f32(raw) / 10.0 (R111). A significand rounded up to 2^24 carries into the exponent field. -/
def f32DivTen (raw : BitVec 16) : Word :=
  if raw = 0 then 0
  else BitVec.ofNat 32 ((unitsExponent raw.toNat + 122) * 2 ^ 23 + roundTenth (unitsScaled raw.toNat))

/-- humidity = f32(VAL[31:16]) / 10.0 (R111). -/
def hostHumidity (val : Word) : Word := f32DivTen (val.extractLsb' 16 16)

/-- temperature = f32(VAL[15:0]) / 10.0 (R111). -/
def hostTemperature (val : Word) : Word := f32DivTen (val.extractLsb' 0 16)

end Sys2Proof.Machine
end

