-- ==== Sys2Proof/Safety.lean ====
section
/-! DEFINITION. The terms in which claims are stated: runs, the order of bus events (spec/42_lcd_bus.md R119), the pin, phase,
configuration and buffer invariants, what a log shows and what an LCD operation's log is by its rule, and the environments in
which an operation comes to its end. -/

namespace Sys2Proof.Machine

/-! ### Runs -/

/-- `k` steps of the machine, stopping at the first fault or refusal. -/
def runs (k : Nat) (s : State) : Host.Outcome State Fault Refusal := Host.Core.run Sys2Proof.core k s

/-- No operation is running, as the block is between operations (R18, R33). -/
def AtIdle (s : State) : Prop := s.port.opbusy = false ∧ s.phase = .idle ∧ s.todo = []

/-! ### The order of events in a bus cycle -/

/-- How far a bus cycle has come (R122). -/
inductive BusPhase where
  /-- Between cycles; E = 0. -/
  | idle
  /-- RS is set. -/
  | selected
  /-- RW is set. -/
  | rwSet (rw : Bool)
  /-- The direction is set; E may rise. -/
  | directed (rw : Bool)
  /-- E = 1 in a write cycle, the data not yet applied. -/
  | raised
  /-- E = 1 in a write cycle, the data applied. -/
  | applied
  /-- E = 1 in a read cycle, the data not yet sampled. -/
  | reading
  /-- E = 1 in a read cycle, the data sampled. -/
  | taken
  deriving DecidableEq, Repr

/-- E is 1 in this phase. -/
def BusPhase.enabled : BusPhase → Bool
  | .raised | .applied | .reading | .taken => true
  | .idle | .selected | .rwSet _ | .directed _ => false

/-- Between cycles: RS first; any event that is not of the bus may come. -/
def nextIdle : Event → Option BusPhase
  | .rs _ => some .selected
  | .tread _ | .treset | .delayMs _ | .snsCfg _ | .snsDrive _ | .snsSample _ => some .idle
  | _ => none

/-- After RS: RW where there is an RW pin, else the direction, which is out. -/
def nextSelected (hasRw : Bool) : Event → Option BusPhase
  | .tread _ | .treset => some .selected
  | .rw v => if hasRw then some (.rwSet v) else none
  | .ddir d => if hasRw = false ∧ d = .out then some (.directed false) else none
  | _ => none

/-- After RW: the direction that goes with it. -/
def nextRwSet (rw : Bool) : Event → Option BusPhase
  | .ddir d => if d = (if rw then .inp else .out) then some (.directed rw) else none
  | _ => none

/-- After the direction: E rises. -/
def nextDirected (rw : Bool) : Event → Option BusPhase
  | .tread _ | .treset => some (.directed rw)
  | .e v => if v then some (if rw then .reading else .raised) else none
  | _ => none

/-- E has risen in a write cycle: the data comes next. -/
def nextRaised : Event → Option BusPhase
  | .d _ => some .applied
  | _ => none

/-- The data is held, and E falls. -/
def nextApplied : Event → Option BusPhase
  | .tread _ | .treset => some .applied
  | .e v => if v then none else some .idle
  | _ => none

/-- E is held in a read cycle, and the data is sampled. -/
def nextReading : Event → Option BusPhase
  | .tread _ | .treset => some .reading
  | .dsample _ => some .taken
  | _ => none

/-- The sample is taken, and E falls. -/
def nextTaken : Event → Option BusPhase
  | .e v => if v then none else some .idle
  | _ => none

/-- Where an event takes a bus cycle, and `none` where R119 does not allow it there: RS first, then RW where there is one,
then the direction, then E; one data event, the first after E rises in a write cycle and none in a read cycle; nothing but
waits otherwise while E = 1; RS again only after E has fallen. -/
def busNext (hasRw : Bool) (p : BusPhase) (ev : Event) : Option BusPhase :=
  match p with
  | .idle => nextIdle ev
  | .selected => nextSelected hasRw ev
  | .rwSet rw => nextRwSet rw ev
  | .directed rw => nextDirected rw ev
  | .raised => nextRaised ev
  | .applied => nextApplied ev
  | .reading => nextReading ev
  | .taken => nextTaken ev

/-- Where a list of events takes a bus cycle. -/
def busLog (hasRw : Bool) : BusPhase → List Event → Option BusPhase
  | p, [] => some p
  | p, ev :: evs => (busNext hasRw p ev).bind fun q => busLog hasRw q evs

/-- Where a job takes a bus cycle: the bus jobs and the waits by the event they append; any other job comes between
cycles. -/
def busJob (hasRw : Bool) (p : BusPhase) : Job → Option BusPhase
  | .cntReset => busNext hasRw p .treset
  | .spin _ => busNext hasRw p (.tread 0)
  | .setRS v => busNext hasRw p (.rs v)
  | .setRW v => busNext hasRw p (.rw v)
  | .setDDir d => busNext hasRw p (.ddir d)
  | .setE v => busNext hasRw p (.e v)
  | .drive v => busNext hasRw p (.d v)
  | .sample _ => busNext hasRw p (.dsample (.byte 0))
  | _ => if p = .idle then some .idle else none

/-- Where a list of jobs takes a bus cycle. -/
def busJobs (hasRw : Bool) : BusPhase → List Job → Option BusPhase
  | p, [] => some p
  | p, j :: js => (busJob hasRw p j).bind fun q => busJobs hasRw q js

/-- The bus invariant (R118 to R120, R133): the log so far is a sequence of ordered bus cycles, the last one perhaps under
way; the jobs ahead bring it to its end; E stands as the cycle has it; and no job is left when no operation runs. -/
def BusOrdered (s : State) : Prop :=
  ∃ p, busLog s.par.hasRw .idle s.obs.log = some p ∧ busJobs s.par.hasRw p s.todo = some .idle ∧
    s.lcd.e = p.enabled ∧ (s.port.opbusy = false → s.todo = [])

/-! ### The sensor pin -/

/-- The pin as every SNS.READ leaves it (R97). -/
def snsAtRest : SnsPin := ⟨.inPu, true⟩

/-- The jobs ahead, from a pin, end with the pin at rest, and no job that samples the line or ends the operation meets
another pin (R97, R100): only waits come between the pin's own changes. -/
def snsJobs : SnsPin → List Job → Bool
  | pin, [] => decide (pin = snsAtRest)
  | pin, .snsConfig m :: js => snsJobs { pin with mode := m } js
  | pin, .snsDrive v :: js => snsJobs { pin with drv := v } js
  | pin, .delayMs _ :: js => snsJobs pin js
  | pin, .cntReset :: js => snsJobs pin js
  | pin, .spin _ :: js => snsJobs pin js
  | pin, .enter _ :: js => snsJobs pin js
  | pin, _ :: js => decide (pin = snsAtRest) && snsJobs pin js

/-- The sensor pin's invariant: the jobs ahead bring it to rest, and no job is left when no operation runs (R97). -/
def SensorPinSafe (s : State) : Prop := snsJobs s.sns s.todo = true ∧ (s.port.opbusy = false → s.todo = [])

/-! ### Phase, configuration and buffers -/

/-- No job ahead enters PHASE = IDLE. -/
def entersNoIdle (js : List Job) : Bool := js.all fun j => decide (j ≠ .enter .idle)

/-- PHASE = IDLE exactly when OPBUSY = 0 (R33). -/
def PhaseMatchesBusy (s : State) : Prop := (s.phase = .idle ↔ s.port.opbusy = false) ∧ entersNoIdle s.todo = true

/-- INIT_DONE = 1 implies a legal configuration (R42, R139, R141), and an LCD.INIT under way is about one. -/
def ConfigSafe (s : State) : Prop :=
  (s.cfg.initDone = true ∨ .initEnd ∈ s.todo) → configLegal s.par s.cfg.n s.cfg.cols = true

/-- WBUF and RBUF are in canonical form and hold no byte outside 0..BUF_SIZE-1 (R43, R47). -/
def BuffersCanonical (s : State) : Prop :=
  s.port.wbuf.wf = true ∧ s.port.rbuf.wf = true ∧ s.port.wbuf.within s.par.bufSize = true ∧
    s.port.rbuf.within s.par.bufSize = true

/-! ### What a log shows -/

/-- An item of what a log shows: an event; or a whole wait of `n` ticks, which is CntReset() and then CntRead() until the
value is at least `n` (R87), `reads n` being the part of it after the reset. -/
inductive Item where
  | ev (e : Event)
  | wait (n : Word)
  | reads (n : Word)
  deriving DecidableEq, Repr

/-- The events are those of the items, in order, and no others. A wait's reads are all below `n` but its last. -/
def shows : List Event → List Item → Bool
  | [], items => items.isEmpty
  | e :: evs, .ev e' :: items => decide (e = e') && shows evs items
  | e :: evs, .wait n :: items => decide (e = .treset) && shows evs (.reads n :: items)
  | .tread c :: evs, .reads n :: items =>
    if n.toNat ≤ c.toNat then shows evs items else shows evs (.reads n :: items)
  | _ :: _, _ => false

/-- BusCycle(rs, 0, v), as R122 lists its events. -/
def writeCycleItems (par : Params) (rs : Bool) (v : DataVal) : List Item :=
  [.ev (.rs rs), .wait par.tSp] ++ (if par.hasRw then [.ev (.rw false)] else []) ++
    [.ev (.ddir .out), .wait par.tSp, .ev (.e true), .ev (.d v), .wait par.tPw, .ev (.e false), .wait par.tCyc]

/-- BusCycle(rs, 1, -) that samples v, as R122 lists its events. -/
def readCycleItems (par : Params) (rs : Bool) (v : DataVal) : List Item :=
  [.ev (.rs rs), .wait par.tSp, .ev (.rw true), .ev (.ddir .inp), .wait par.tSp, .ev (.e true), .wait par.tPw,
    .ev (.dsample v), .ev (.e false), .wait par.tCyc]

/-- XferWrite(rs, b): one cycle in 8-bit mode, else the high and then the low nibble (R123). -/
def writeItems (par : Params) (dl rs : Bool) (b : Byte) : List Item :=
  if dl then writeCycleItems par rs (.byte b)
  else writeCycleItems par rs (.nibble (b.extractLsb' 4 4)) ++ writeCycleItems par rs (.nibble (b.extractLsb' 0 4))

/-- XferRead(rs) that gives b: one cycle in 8-bit mode, else the high and then the low nibble (R123). -/
def readItems (par : Params) (dl rs : Bool) (b : Byte) : List Item :=
  if dl then readCycleItems par rs (.byte b)
  else readCycleItems par rs (.nibble (b.extractLsb' 4 4)) ++ readCycleItems par rs (.nibble (b.extractLsb' 0 4))

/-- NibbleCycle(n): the nibble alone in 4-bit mode, the byte of n and 0x0 in 8-bit mode (R124). -/
def nibbleItems (par : Params) (dl : Bool) (n : BitVec 4) : List Item :=
  writeCycleItems par false (if dl then .byte (n ++ 0#4) else .nibble n)

/-- Busy reads that give these bytes, with a wait of POLL_INTERVAL between any two of them (R128). -/
def pollItems (par : Params) (dl : Bool) : List Byte → List Item
  | [] => []
  | [b] => readItems par dl false b
  | b :: bs => readItems par dl false b ++ [.wait par.pollInterval] ++ pollItems par dl bs

/-! ### The controller's answers -/

/-- The bytes that read transfers collect from the draws of LCD_D: each draw in 8-bit mode, the upper nibbles of each two
draws in 4-bit mode (R49, R123). -/
def answers : (dl : Bool) → List Byte → List Byte
  | true, ps => ps
  | false, p :: q :: ps => (highNibble p ++ highNibble q) :: answers false ps
  | false, _ => []

/-- The controller's answer number `j`. -/
def answer (dl : Bool) (s : State) (j : Nat) : Byte := (answers dl s.env.pins).getD j 0

/-- With an RW pin the controller has answers for `n` waits until ready, each with a data read before it. -/
def Answered (dl : Bool) (n : Nat) (s : State) : Prop :=
  s.par.hasRw = true → n * (s.par.maxPolls + 2) ≤ (answers dl s.env.pins).length

/-- Each of the controller's next `n` answers has its busy flag set. -/
def ControllerBusy (dl : Bool) (n : Nat) (s : State) : Prop :=
  n ≤ (answers dl s.env.pins).length ∧ ∀ b ∈ (answers dl s.env.pins).take n, b.getLsbD 7 = true

/-! ### What an LCD operation does, by its rule -/

/-- How far an LCD operation has come by the pseudocode of its rule, told without the machine: what its log shows, AC_SHADOW,
the answers the controller has yet to give, whether a wait has timed out (TOFLAG), and the bytes its data reads gave. -/
structure Course where
  par : Params
  dl : Bool
  items : List Item
  ac : BitVec 7
  left : List Byte
  late : Bool
  got : List Byte
  deriving DecidableEq, Repr

/-- An operation's start on a bus of width `dl`: TOFLAG <- 0 (R136). -/
def Course.start (dl : Bool) (s : State) : Course := ⟨s.par, dl, [], s.ac, answers dl s.env.pins, false, []⟩

/-- The log goes on with these items. -/
def Course.more (x : Course) (items : List Item) : Course := { x with items := x.items ++ items }

/-- WaitTicks(n). -/
def Course.pause (n : Word) (x : Course) : Course := x.more [.wait n]

/-- XferWrite(rs, b) (R123, R125). -/
def Course.send (rs : Bool) (b : Byte) (x : Course) : Course := x.more (writeItems x.par x.dl rs b)

/-- AC_SHADOW <- a (R131). -/
def Course.setAc (a : BitVec 7) (x : Course) : Course := { x with ac := a }

/-- XferRead(rs) takes the controller's next answer (R123). -/
def Course.receive (rs : Bool) (x : Course) : Course :=
  { x.more (readItems x.par x.dl rs (x.left.headD 0)) with left := x.left.tail }

/-- BusyRead(): AC_SHADOW <- bits 6..0 of the answer (R126). -/
def Course.busyRead (x : Course) : Course := (x.receive false).setAc ((x.left.headD 0).extractLsb' 0 7)

/-- DataRead(): the byte is kept, AC_SHADOW <- AC_SHADOW +7 1 (R127). -/
def Course.dataRead (x : Course) : Course :=
  { (x.receive true).setAc (x.ac + 1) with got := x.got ++ [x.left.headD 0] }

/-- The loop of WaitReady with `n` polls allowed after this one (R128, R129); the first poll is made with MAX_POLLS = 0 too
(assumption log 35). -/
def Course.polls : Nat → Course → Course
  | 0, x => { x.busyRead with late := x.late || (x.left.headD 0).getLsbD 7 }
  | n + 1, x =>
    if (x.left.headD 0).getLsbD 7 then Course.polls n (x.busyRead.pause x.par.pollInterval) else x.busyRead

/-- WaitReady(long) (R128, R130). -/
def Course.wait (long : Bool) (x : Course) : Course :=
  if x.par.hasRw then Course.polls (x.par.maxPolls - 1) x
  else x.pause (if long then x.par.blindLong else x.par.blindShort)

/-- DataWrite(b) and WaitReady(false) (R125, R132, R149). -/
def Course.writeData (x : Course) (b : Byte) : Course := ((x.send true b).setAc (x.ac + 1)).wait false

/-- `n` times DataRead() and WaitReady(false) (R132, R152). -/
def Course.readRow : Nat → Course → Course
  | 0, x => x
  | n + 1, x => Course.readRow n (x.dataRead.wait false)

/-- LCD.INIT's 8-bit function sets: one, or three with INIT_WAIT1 and INIT_WAIT2 between them (R140). -/
def Course.initSets8 (fs : Byte) (x : Course) : Course :=
  if x.par.initRepeat = 1 then x.send false fs
  else ((((x.send false fs).pause x.par.initWait1).send false fs).pause x.par.initWait2).send false fs

/-- LCD.INIT's 4-bit function sets: NIB3 once or three times, INIT_WAIT1 after the first and INIT_WAIT2 after the others, then
NIB2, INIT_WAIT2 and the function set (R140). -/
def Course.initSets4 (fs : Byte) (x : Course) : Course :=
  let nib3 := nibbleItems x.par x.dl 3
  let more := if x.par.initRepeat = 1 then [] else nib3 ++ [.wait x.par.initWait2] ++ nib3 ++ [.wait x.par.initWait2]
  (x.more (nib3 ++ [.wait x.par.initWait1] ++ more ++ nibbleItems x.par x.dl 2 ++ [.wait x.par.initWait2])).send false fs

/-- LCD.INIT after its check (R140): the power-on wait, the function sets of the bus width and WaitReady, then 0x08, 0x01 and
0x06 with their waits. -/
def initCourse (dl n f : Bool) (s : State) : Course :=
  let fs : Byte := 0b001#3 ++ BitVec.ofBool dl ++ BitVec.ofBool n ++ BitVec.ofBool f ++ 0#2
  let x := (Course.start dl s).more [.ev (.delayMs s.par.powerOnMs)]
  let y := ((if dl then x.initSets8 fs else x.initSets4 fs).wait false).send false 0x08 |>.wait false
  (((y.send false 0x01).setAc 0).wait true |>.send false 0x06).wait false

/-! ### Environments -/

/-- The longest of the sequencer's waits, in ticks. -/
def longestWait (par : Params) : Nat :=
  max (max (max par.tSp.toNat par.tPw.toNat) (max par.tCyc.toNat par.pollInterval.toNat))
    (max (max par.blindShort.toNat par.blindLong.toNat) (max par.initWait1.toNat par.initWait2.toNat))

/-- For the next steps, enough for `n` jobs of the sequencer, an operation runs undisturbed: the host does nothing, and before
each step at least one tick passes and not so many that CNT could wrap inside a wait. So a wait of `m` ticks ends within
max(m, 1) reads. -/
def Paced (n : Nat) (s : State) : Prop :=
  s.inputs = [] ∧ s.port.opbusy = true ∧ n * (longestWait s.par + 2) ≤ s.env.ticks.length ∧
    ∀ k ∈ s.env.ticks, 1 ≤ k ∧ longestWait s.par + k < cntSpan s.par

/-! ### What the timer and the sensor do during an SNS.READ -/

/-- CNT, `k` ticks after it was `c`. -/
def later (par : Params) (c : Word) (k : Nat) : Word := wrapCnt par (c + BitVec.ofNat 32 k)

/-- The events of counter reads with these ticks before each, from a count `c` on. -/
def readsLog (par : Params) : Word → List Nat → List Event
  | _, [] => []
  | c, k :: ks => .tread (later par c k) :: readsLog par (later par c k) ks

/-- Samples that find the line still at the level: the ticks before each sample and before the elapsed check after it (R89,
R90). A measurement without limit makes no check, and all these ticks pass before the sample (R88). The ticks in all, -/
def heldTicks (held : List (Nat × Nat)) : Nat := (held.map fun h => h.1 + h.2).sum

/-- the timer's draws, -/
def heldDraws (checked : Bool) (held : List (Nat × Nat)) : List Nat :=
  held.flatMap fun h => if checked then [h.1, h.2] else [h.1 + h.2]

/-- and the events, from a count `c` on. -/
def heldLog (par : Params) (checked level : Bool) : Word → List (Nat × Nat) → List Event
  | _, [] => []
  | c, h :: hs =>
    [.snsSample level] ++ (if checked then [.tread (later par c (h.1 + h.2))] else []) ++
      heldLog par checked level (later par c (h.1 + h.2)) hs

/-- A pulse as a measurement meets it (R88, R89): the ticks before the snapshot, the samples still at the level, the ticks before
the sample at the other level, and those before the last counter read. -/
structure Pulse where
  snap : Nat
  held : List (Nat × Nat)
  last : Nat
  done : Nat
  deriving DecidableEq, Repr

/-- The measured duration. -/
def Pulse.span (p : Pulse) : Nat := heldTicks p.held + p.last + p.done

/-- The timer's draws during a measurement. -/
def Pulse.draws (checked : Bool) (p : Pulse) : List Nat := p.snap :: (heldDraws checked p.held ++ [p.last, p.done])

/-- The sensor's answers to a measurement of `level`. -/
def Pulse.line (level : Bool) (p : Pulse) : List Bool := List.replicate p.held.length level ++ [!level]

/-- The events of a measurement of `level`, from a count `c` on. -/
def Pulse.log (par : Params) (checked level : Bool) (c : Word) (p : Pulse) : List Event :=
  [.tread (later par c p.snap)] ++ heldLog par checked level (later par c p.snap) p.held ++
    [.snsSample (!level), .tread (later par c (p.snap + p.span))]

/-- The duration is within its limit, where it has one, and CNT does not come round during it (R85, R89). -/
def Pulse.Fits (par : Params) (limit : Option Word) (p : Pulse) : Prop :=
  p.span < cntSpan par ∧ ∀ l, limit = some l → p.span ≤ l.toNat

/-- The pulses of an SNS.READ in their order: number 0 and 1 are the acknowledgement's, 2i + 2 and 2i + 3 bit i's; each low pulse
comes before a high one (R101, R102, R105). The level that pulse number `j` is measured at, -/
def pulseLevel (j : Nat) : Bool := j % 2 == 1

/-- and its limit (R101, R102, R104). -/
def pulseLimit (par : Params) (j : Nat) : Option Word := if j < 2 then some par.ackLimit else par.bitPulseLimit

/-- The timer's draws in the silent steps before pulse number `j`: its PHASE, and the loop's head before a bit. No tick passes
in them: it would as well pass before the snapshot. -/
def pulseGap (j : Nat) : List Nat := List.replicate (if j % 2 == 0 ∧ 2 ≤ j then 2 else 1) 0

/-- The timer's draws during pulses from number `j` on, with the silent step that counts each bit. -/
def pulsesDraws (par : Params) : Nat → List Pulse → List Nat
  | _, [] => []
  | j, p :: ps =>
    pulseGap j ++ p.draws (pulseLimit par j).isSome ++ (if j % 2 == 1 ∧ 2 ≤ j then [0] else []) ++ pulsesDraws par (j + 1) ps

/-- The sensor's answers during pulses from number `j` on. -/
def pulsesLine : Nat → List Pulse → List Bool
  | _, [] => []
  | j, p :: ps => p.line (pulseLevel j) ++ pulsesLine (j + 1) ps

/-- The events of pulses from number `j` and a count `c` on. -/
def pulsesLog (par : Params) : Nat → Word → List Pulse → List Event
  | _, _, [] => []
  | j, c, p :: ps =>
    p.log par (pulseLimit par j).isSome (pulseLevel j) c ++ pulsesLog par (j + 1) (later par c (p.snap + p.span)) ps

/-- An SNS.READ up to some number of its pulses: the ticks before `SnsConfig` and before the idle check's snapshot, the check's
low samples and the ticks before its high one; the ticks of phase 2 up to its CntReset(); the ticks before the wait's reads,
the last of which alone reaches POST_RELEASE_WAIT; and the pulses. -/
structure Reading where
  config : Nat
  snap : Nat
  low : List (Nat × Nat)
  high : Nat
  request : List Nat
  reads : List Nat
  lastRead : Nat
  pulses : List Pulse
  deriving DecidableEq, Repr

/-- CNT at the idle check's snapshot, and at the end of phase 2's wait. -/
def Reading.start (par : Params) (c : Word) (r : Reading) : Word := later par c (r.config + r.snap)
def Reading.released (r : Reading) : Nat := r.reads.sum + r.lastRead

/-- The timer's draws. -/
def Reading.ticks (par : Params) (r : Reading) : List Nat :=
  [r.config, r.snap] ++ heldDraws true r.low ++ [r.high] ++ r.request ++ (r.reads ++ [r.lastRead]) ++
    pulsesDraws par 0 r.pulses

/-- The sensor's answers. -/
def Reading.line (r : Reading) : List Bool := List.replicate r.low.length false ++ [true] ++ pulsesLine 0 r.pulses

/-- The events, from a count `c` on (R99 to R102, R106). -/
def Reading.log (par : Params) (c : Word) (r : Reading) : List Event :=
  ([.snsCfg .inPu, .tread (r.start par c)] ++ heldLog par true false (r.start par c) r.low ++ [.snsSample true]) ++
    [.snsCfg .outOd, .snsDrive false, .delayMs par.reqHoldMs, .snsDrive true, .snsCfg .inPu, .treset] ++
    readsLog par 0 (r.reads ++ [r.lastRead]) ++ pulsesLog par 0 (BitVec.ofNat 32 r.released) r.pulses

/-- CNT after the last pulse. -/
def Reading.count (par : Params) (r : Reading) : Word :=
  later par (BitVec.ofNat 32 r.released) (r.pulses.map fun p => p.snap + p.span).sum

/-- No limit is passed: the idle check's and each pulse's (R89, R90); and the wait ends with its last read (R87). -/
def Reading.Fits (par : Params) (r : Reading) : Prop :=
  heldTicks r.low ≤ par.idleTimeout.toNat ∧ r.request.length = 7 ∧
    (r.reads = [] ∨ r.reads.sum < par.postReleaseWait.toNat) ∧ par.postReleaseWait.toNat ≤ r.released ∧
    r.released < cntSpan par ∧ r.pulses.length ≤ 2 + 2 * par.frameBits ∧
    ∀ (j : Nat) (p : Pulse), r.pulses[j]? = some p → p.Fits par (pulseLimit par j)

/-- The durations of the high pulses of bits, given their low and high pulses. -/
def highSpans : List Pulse → List Word
  | _ :: p :: ps => BitVec.ofNat 32 p.span :: highSpans ps
  | _ => []

/-- HIGH after all the bits. -/
def Reading.highs (r : Reading) : List Word := highSpans (r.pulses.drop 2)

/-! ### Frames -/

/-- What no LCD operation touches: the wiring, CMD, ARG and WBUF, the sensor pin and its working registers, the ended runs
(R37, R38). -/
def LcdKeeps (s t : State) : Prop :=
  t.par = s.par ∧ t.port.cmd = s.port.cmd ∧ t.port.arg = s.port.arg ∧ t.port.wbuf = s.port.wbuf ∧ t.sns = s.sns ∧
    t.work.t0 = s.work.t0 ∧ t.work.i = s.work.i ∧ t.work.low = s.work.low ∧ t.work.high = s.work.high ∧
    t.work.fb = s.work.fb ∧ t.obs.pastRuns = s.obs.pastRuns

/-- What no bus transfer touches (R37, R38). -/
def TransferKeeps (s t : State) : Prop :=
  t.par = s.par ∧ t.port = s.port ∧ t.sns = s.sns ∧ t.cfg = s.cfg ∧ t.set = s.set ∧ t.toflag = s.toflag ∧
    t.todo = s.todo ∧ t.work = { s.work with rx := t.work.rx } ∧ t.obs.results = s.obs.results ∧
    t.obs.pastRuns = s.obs.pastRuns ∧ t.inputs = s.inputs

/-- An LCD operation has been accepted, and its jobs are ahead: TOFLAG and its position are all that has changed (R33, R136). -/
def LcdStarted (s t : State) : Prop := t = { s with toflag := false, phase := .lcdRun 0, todo := t.todo }

/-- An LCD operation other than LCD.INIT (R138). -/
def needsInit : Instr → Bool
  | .lcdSetDisplay .. | .lcdClear | .lcdHome | .lcdSetAddress _ | .lcdSetCursor .. | .lcdWrite _ | .lcdWriteRow _
  | .lcdRead | .lcdReadRow _ | .lcdIsBusy | .lcdGetSettings => true
  | _ => false

/-- An operation that reads from the controller (R151 to R153). -/
def needsReadPin : Instr → Bool
  | .lcdRead | .lcdReadRow _ | .lcdIsBusy => true
  | _ => false

/-- What SNS.READ does not touch (R37, R38): everything of the LCD, the call port's inputs and RBUF. -/
def SensorKeeps (s t : State) : Prop :=
  t.par = s.par ∧ t.port.cmd = s.port.cmd ∧ t.port.arg = s.port.arg ∧ t.port.wbuf = s.port.wbuf ∧
    t.port.rbuf = s.port.rbuf ∧ t.lcd = s.lcd ∧ t.cfg = s.cfg ∧ t.set = s.set ∧ t.ac = s.ac ∧ t.toflag = s.toflag ∧
    t.work.polls = s.work.polls ∧ t.work.nXfer = s.work.nXfer ∧ t.obs.pastRuns = s.obs.pastRuns

/-- An operation has ended with a status and a value: STATUS, VAL, OPBUSY, PHASE, and the result in the observation (R19,
R39, R161). -/
def EndedWith (st : Status) (v : Word) (s t : State) : Prop :=
  t.port.status = st.code ∧ t.port.val = v ∧ t.port.opbusy = false ∧ t.phase = .idle ∧ t.todo = [] ∧
    t.obs.results = s.obs.results ++ [t.port.result]

/-- An LCD operation that was accepted in `s` and has started in `t` runs to its end as its rule has it: STATUS is 4 if a wait
timed out and else 0 (R136, R165), VAL, the settings, the configuration and RBUF are those given, AC_SHADOW and the whole log
are the course's, and E = 0 after the last cycle, if there was one. -/
def EndsAs (x : Course) (v : Word) (set : Settings) (cfg : LcdConfig) (rbuf : Nat → Byte) (s t : State) : Prop :=
  ∃ k u evs, runs k t = .next u ∧ EndedWith (if x.late then .controllerTimeout else .ok) v s u ∧ u.set = set ∧
    u.cfg = cfg ∧ u.ac = x.ac ∧ (x.items ≠ [] → u.lcd.e = false) ∧ u.obs.log = s.obs.log ++ evs ∧
    shows evs x.items = true ∧ LcdKeeps s u ∧ ∀ a, u.port.rbuf.read a = rbuf a

/-- An operation has ended with an error that leaves VAL unspecified (R31, R161), VAL being some free value. -/
def RaisedError (st : Status) (s t : State) : Prop := ∃ v, EndedWith st v s t

/-- A check failed (R138, R163) of an operation that was accepted in `s`: after the step of the raise the status is written, no
event is appended, and nothing else is changed but TOFLAG, whose value between operations is unspecified, the count of free
values, and CNT by the timer's own move. -/
def CheckFailed (st : Status) (s t : State) : Prop :=
  RaisedError st s t ∧ t.obs.log = s.obs.log ∧ t.obs.pastRuns = s.obs.pastRuns ∧ t.par = s.par ∧
    t.port.cmd = s.port.cmd ∧ t.port.arg = s.port.arg ∧ t.port.wbuf = s.port.wbuf ∧ t.port.rbuf = s.port.rbuf ∧
    t.cnt = (advanceTimer s).cnt ∧ t.sns = s.sns ∧ t.lcd = s.lcd ∧ t.cfg = s.cfg ∧ t.set = s.set ∧ t.ac = s.ac ∧
    t.work = s.work ∧ t.inputs = s.inputs ∧ t.env = (advanceTimer s).env

/-- An LCD operation fails a check: its only primitive is the raise, in the step after the one that accepts it (R14, R162). -/
def FailsCheck (st : Status) (i : Instr) (s : State) : Prop :=
  ∃ t, exec i s = .next t ∧ LcdStarted s t ∧ ∃ u, step t = .next u ∧ CheckFailed st s u

/-! ### The opcode table of the host operations -/

/-- (mask, match) of each host operation of spec/opcode_table.json, for R65. -/
def hostOpRows : List (Word × Word) :=
  [(0xFFFFFFFF, 0x01000000), (0xFFFFFFFF, 0x02000000), (0xFFFFFFFF, 0x10000000), (0xFFFF00F8, 0x20000000),
   (0xFFFFFFF8, 0x21000000), (0xFFFFFFFF, 0x22000000), (0xFFFFFFFF, 0x23000000), (0xFFFFFF80, 0x24000000)] ++
  [(0xFFFF0000, 0x25000000), (0xFFFFFF00, 0x26000000), (0xFFFFFF00, 0x27000000), (0xFFFFFFFF, 0x28000000),
   (0xFFFFFF00, 0x29000000), (0xFFFFFFFF, 0x2A000000), (0xFFFFFFFF, 0x2B000000)]

/-- A legal CMD word: it has an OPC of R63 and every reserved bit of its format is 0 (R65). -/
def legalCmd (w : Word) : Bool := hostOpRows.any fun r => w &&& r.1 == r.2

end Sys2Proof.Machine
end

