-- ==== Sys2Proof/Certificates/Slice0/Obligations.lean ====
section
/-! DEFINITION. The statements about the block that the provers settle. OBLIGATIONS.json names the rules of spec/ each one
formalises. -/

open Sys2Proof Sys2Proof.Machine

/-! ### Encoding -/

/-- Decoding an instruction's word gives the instruction, for every well-formed instruction and every operand. -/
def Obligations.DecodeOfEncode : Prop := ∀ i : Instr, i.wellFormed = true → decode (encode i) = .ok i

/-- A word the decoder accepts is the encoding of what it gives, which is well formed: no word has a second meaning, and no
bit of an accepted CMD word is ignored. RETURN_HOME's don't-care bit is an operand of its instruction. -/
def Obligations.EncodeOfDecode : Prop :=
  ∀ (e : Encoded) (i : Instr), decode e = .ok i → encode i = e ∧ i.wellFormed = true

/-- R65: a CMD word is accepted iff its OPC is in R63's map and every reserved bit of its format is 0. -/
def Obligations.LegalCmdWords : Prop := ∀ w : Word, (∃ i, decodeCmd w = .ok i) ↔ legalCmd w = true

/-- Words written out from R62, R63 and R70 to R77 decode to the instructions they stand for. -/
def Obligations.DecodeSampleWords : Prop :=
  decodeCmd 0x20001003 = .ok (.lcdInit 16 false true true) ∧ decodeCmd 0x21000006 = .ok (.lcdSetDisplay true true false) ∧
    decodeCmd 0x24000045 = .ok (.lcdSetAddress 0x45) ∧ decodeCmd 0x2500010F = .ok (.lcdSetCursor 1 15) ∧
    decodeCmd 0x02000000 = .ok .tmrResetWait ∧ decodeCmd 0x10000000 = .ok .snsRead ∧
    decodeCmdw 0x38 = .ok (.busFunctionSet true true false) ∧ decodeCmdw 0xC5 = .ok (.busSetDdramAddress 0x45)

/-! ### The step, the call port and reset -/

/-- A step runs the instruction it decodes: after the timer's move, the operation of a CMD word that the host writes while
no operation runs, or the instruction of a running operation's next transfer. -/
def Obligations.StepRunsDecodedInstruction : Prop :=
  (∀ (s : State) (w : Word) (rest : List Input) (i : Instr), s.inputs = .writeCmd w :: rest → s.port.opbusy = false →
    decode (.cmd w) = .ok i → step s = exec i (accept w { advanceTimer s with inputs := rest })) ∧
  (∀ (s : State) (w : BusWord) (js : List Job) (i : Instr), s.inputs = [] → s.port.opbusy = true →
    s.todo = .transfer w :: js → decode (.bus w) = .ok i → step s = exec i (takeJob js (advanceTimer s)))

/-- R65: an illegal word written while no operation runs gives STATUS 8, by the step of the raise that follows the write (R14,
R161); the block appends no event and changes nothing else. -/
def Obligations.IllegalWordGivesStatusEight : Prop :=
  ∀ (s : State) (w : Word), s.inputs = [.writeCmd w] → AtIdle s → legalCmd w = false →
    ∃ t u, step s = .next t ∧ t.obs = s.obs ∧ step t = .next u ∧ u.port.status = 8 ∧ u.toflag = s.toflag ∧
      CheckFailed .illegalOp (accept w { advanceTimer s with inputs := [] }) u

/-- R20: a write of CMD, ARG or WBUF while an operation runs is a fault of the host. -/
def Obligations.HostWriteWhileBusyFaults : Prop :=
  ∀ (s : State) (x : Input) (rest : List Input), s.inputs = x :: rest → s.port.opbusy = true →
    (∃ w, x = .writeCmd w) ∨ (∃ v, x = .writeArg v) ∨ (∃ i v, x = .writeWbuf i v) →
    step s = .fault .hostWroteWhileBusy

/-- R47, R57: what the host writes to ARG and to a byte of WBUF while no operation runs stands there afterwards; every other
byte of WBUF reads as before. -/
def Obligations.HostWritesStand : Prop :=
  ∀ (s : State) (rest : List Input), s.port.opbusy = false → s.port.wbuf.wf = true →
    (∀ v, s.inputs = .writeArg v :: rest →
      ∃ t, step s = .next t ∧ t.port = { s.port with arg := v } ∧ t.obs = s.obs ∧ t.lcd = s.lcd ∧ t.sns = s.sns) ∧
    (∀ i v, s.inputs = .writeWbuf i v :: rest → i < s.par.bufSize →
      ∃ t, step s = .next t ∧ t.port = { s.port with wbuf := t.port.wbuf } ∧ t.obs = s.obs ∧ t.lcd = s.lcd ∧
        t.sns = s.sns ∧ t.port.wbuf.read i = v ∧
        ∀ a, a ≠ i → t.port.wbuf.read a = s.port.wbuf.read a)

/-- R43, R47: a byte of WBUF or RBUF with an index of BUF_SIZE or more does not exist. A write of one is the host's fault, and
a row operation stops where it would access one; with BUF_SIZE = 256 no row operation does. The fault is the model's choice
(assumption log 34). -/
def Obligations.AccessOutsideBufferFaults : Prop :=
  (∀ (s : State) (i : Nat) (v : Byte) (rest : List Input), s.inputs = .writeWbuf i v :: rest → s.port.opbusy = false →
    s.par.bufSize ≤ i → step s = .fault .outsideBuffer) ∧
  (∀ (s : State) (i : Nat) (js : List Job), s.inputs = [] → s.port.opbusy = true → s.par.bufSize ≤ i →
    s.todo = .storeRead i :: js ∨ (s.todo = .writeNext i :: js ∧ i < s.work.nXfer.toNat) →
    step s = .fault .outsideBuffer) ∧
  (∀ (s : State) (i : Nat) (js : List Job), s.inputs = [] → s.port.opbusy = true → s.par.bufSize = 256 →
    s.todo = .writeNext i :: js ∨ s.todo = .readNext i :: js ∨ (s.todo = .storeRead i :: js ∧ i < s.work.nXfer.toNat) →
    ∃ t, step s = .next t)

/-- R22, R179: with no operation running and nothing written, a step is the timer's alone. -/
def Obligations.IdleStepIsTheTimers : Prop :=
  ∀ s : State, s.port.opbusy = false → s.inputs = [] →
    ∃ k env d, step s = .next { s with cnt := wrapCnt s.par (s.cnt + BitVec.ofNat 32 k), env := env, draws := d } ∧
      env.line = s.env.line ∧ env.pins = s.env.pins

/-- R178: RST ends an operation at whatever step it has reached: no STATUS or VAL of its own, the pins at their reset values,
the log ended by RESET, the next log empty, INIT_DONE = 0. That the ended run is kept, and that an RST with no operation
running also ends the run's log with RESET, are the model's choices (assumption log 15 and 18). -/
def Obligations.ResetDuringOperation : Prop :=
  ∀ (s : State) (rest : List Input), s.inputs = .rst :: rest →
    ∃ t, step s = .next t ∧ t.port.opbusy = false ∧ t.phase = .idle ∧ t.todo = [] ∧ t.port.status = 0 ∧
      t.lcd.e = false ∧ t.lcd.rs = false ∧ t.lcd.rw = false ∧ t.lcd.ddir = .inp ∧ t.sns = ⟨.inPu, true⟩ ∧
      t.cfg.initDone = false ∧ t.obs.log = [] ∧ t.obs.results = [] ∧
      t.obs.pastRuns = s.obs.pastRuns ++ [⟨s.obs.log ++ [.reset], s.obs.results⟩] ∧ t.par = s.par

/-- R41: the values the spec states for reset. -/
def Obligations.ResetValues : Prop :=
  State.reset.sns = ⟨.inPu, true⟩ ∧ State.reset.lcd.rs = false ∧ State.reset.lcd.rw = false ∧
    State.reset.lcd.e = false ∧ State.reset.lcd.ddir = .inp ∧ State.reset.cfg.initDone = false ∧
    State.reset.port.status = 0 ∧ State.reset.port.opbusy = false ∧ State.reset.phase = .idle ∧
    State.reset.obs.log = []

/-! ### Whole-machine rules: who writes what -/

/-- R22: CNT changes by the timer's ticks, and is set to 0 by CntReset(); RST alone gives it another value. -/
def Obligations.CntWriters : Prop :=
  ∀ s t : State, step s = .next t → s.inputs.head? ≠ some .rst →
    t.cnt = (advanceTimer s).cnt ∨ (t.cnt = 0 ∧ t.obs.log = s.obs.log ++ [.treset])

/-- R84, R85: the elapsed value of two counts is the number of timer steps between them modulo 2^CNT_WIDTH, which is 2^32, when
no CntReset() and no RST comes between them. The spec derives R85 from R84 and R22; another width than 32 is the model's
reading (assumption log 33). -/
def Obligations.ElapsedWrapLaw : Prop :=
  ∀ (n : Nat) (s u : State), runs n s = .next u → n ≤ s.env.ticks.length → (∀ x ∈ s.inputs, x ≠ .rst) →
    (∀ ev ∈ u.obs.log.drop s.obs.log.length, ev ≠ .treset) →
    (elapsed s.par u.cnt s.cnt).toNat = (s.env.ticks.take n).sum % 2 ^ min s.par.cntWidth 32

/-- R14, R39, R55: a step without RST appends at most one event, and takes none back. -/
def Obligations.LogGrowsByOneEvent : Prop :=
  ∀ s t : State, step s = .next t → s.inputs.head? ≠ some .rst →
    t.obs.log = s.obs.log ∨ ∃ ev, t.obs.log = s.obs.log ++ [ev]

/-- R131: AC_SHADOW changes at the points the rule lists, each of them a job of its own, and at RST. -/
def Obligations.AcShadowWriters : Prop :=
  ∀ s t : State, step s = .next t → s.inputs.head? ≠ some .rst → t.ac ≠ s.ac →
    (∃ a, s.todo.head? = some (.setAc a) ∧ t.ac = a) ∨ (s.todo.head? = some .incAc ∧ t.ac = s.ac + 1) ∨
      (s.todo.head? = some .acFromRead ∧ t.ac = addressCounter s.work.rx)

/-- R24, R26, R38: the sensor pin's registers change only by SnsConfig and SnsDrive, the LCD pins' only by the bus cycle's own
primitives; so a step changes at most one of the two pin sets. -/
def Obligations.PinWriters : Prop :=
  ∀ s t : State, step s = .next t → s.inputs.head? ≠ some .rst →
    (t.sns ≠ s.sns → (∃ m, s.todo.head? = some (.snsConfig m)) ∨ (∃ v, s.todo.head? = some (.snsDrive v))) ∧
    (t.lcd ≠ s.lcd → (∃ v, s.todo.head? = some (.setRS v)) ∨ (∃ v, s.todo.head? = some (.setRW v)) ∨
      (∃ v, s.todo.head? = some (.setE v)) ∨ (∃ d, s.todo.head? = some (.setDDir d)) ∨
      (∃ v, s.todo.head? = some (.drive v)))

/-- R30: only the end of an operation writes STATUS, and it writes a legal value; then OPBUSY = 0 and the result is in the
observation, STATUS as the u32 that the port moves (R19, R39, R50). That STATUS, VAL, PHASE and OPBUSY change in one step is
the model's choice for an operation that succeeds (assumption log 17; R14 makes a raise one step), and so is the record of the
results (assumption log 18). -/
def Obligations.StatusWriters : Prop :=
  ∀ s t : State, step s = .next t → s.inputs.head? ≠ some .rst → t.obs.results ≠ s.obs.results ∨
      t.port.status ≠ s.port.status ∨ t.port.val ≠ s.port.val →
    t.port.opbusy = false ∧ t.phase = .idle ∧ t.todo = [] ∧ t.port.status.toNat ≤ 9 ∧
      t.obs.results = s.obs.results ++ [⟨0#24 ++ t.port.status, t.port.val, t.port.rbuf⟩]

/-- R27, R28: without RST, the configuration changes only where LCD.INIT passes its check and where it completes; the
settings change only where LCD.SET_DISPLAY writes them and where LCD.INIT completes. -/
def Obligations.ConfigAndSettingsWriters : Prop :=
  ∀ s t : State, step s = .next t → s.inputs.head? ≠ some .rst →
    (t.cfg ≠ s.cfg →
      (∃ w cols f n dl, s.inputs.head? = some (.writeCmd w) ∧ decodeCmd w = .ok (.lcdInit cols f n dl) ∧
        configLegal s.par n cols = true ∧ t.cfg = ⟨dl, n, f, cols, false⟩) ∨
      (s.todo.head? = some .initEnd ∧ t.cfg = { s.cfg with initDone := true })) ∧
    (t.set ≠ s.set →
      (∃ d c b, s.todo.head? = some (.setSettings d c b) ∧ t.set = ⟨d, c, b⟩) ∨
      (s.todo.head? = some .initEnd ∧ t.set = ⟨false, false, false⟩))

/-- R47: without RST, only LCD.READ_ROW's MemWrite changes RBUF, at its own byte, and only the host changes WBUF. -/
def Obligations.BufferWriters : Prop :=
  ∀ s t : State, step s = .next t → s.inputs.head? ≠ some .rst → s.port.rbuf.wf = true →
    ((∀ a, t.port.rbuf.read a = s.port.rbuf.read a) ∨
      ∃ i, s.todo.head? = some (.storeRead i) ∧ t.port.rbuf.read i = s.work.rx ∧
        ∀ a, a ≠ i → t.port.rbuf.read a = s.port.rbuf.read a) ∧
    ((∃ i v, s.inputs.head? = some (.writeWbuf i v)) ∨ ∀ a, t.port.wbuf.read a = s.port.wbuf.read a)

/-! ### Invariants that every step keeps -/

/-- R118, R119, R120, R133: every step, from every state that meets it, keeps the order of bus events; and wherever no
operation runs, however the last one ended, E = 0. -/
def Obligations.StepKeepsBusOrder : Prop :=
  ∀ s t : State, BusOrdered s → step s = .next t → BusOrdered t ∧ (t.port.opbusy = false → t.lcd.e = false)

/-- R97, R100: every step keeps the sensor pin's invariant. -/
def Obligations.StepKeepsSensorPinSafe : Prop := ∀ s t : State, SensorPinSafe s → step s = .next t → SensorPinSafe t

/-- R33: every step keeps PHASE = IDLE exactly when OPBUSY = 0. -/
def Obligations.StepKeepsPhaseMatchesBusy : Prop :=
  ∀ s t : State, PhaseMatchesBusy s → step s = .next t → PhaseMatchesBusy t

/-- R42, R139, R141: every step keeps INIT_DONE = 1 only with a legal configuration. -/
def Obligations.StepKeepsConfigSafe : Prop := ∀ s t : State, ConfigSafe s → step s = .next t → ConfigSafe t

/-- R43, R47: every step keeps the buffers' canonical form and every byte of them inside 0..BUF_SIZE-1. -/
def Obligations.StepKeepsBuffersCanonical : Prop :=
  ∀ s t : State, BuffersCanonical s → step s = .next t → BuffersCanonical t

/-- The invariants hold at reset. -/
def Obligations.ResetMeetsTheInvariants : Prop :=
  BusOrdered State.reset ∧ SensorPinSafe State.reset ∧ PhaseMatchesBusy State.reset ∧ ConfigSafe State.reset ∧
    BuffersCanonical State.reset

/-! ### Timer -/

/-- R86: CMD = 0x01000000 is TMR.ELAPSED, which reads the counter in one step, appends the read and answers it in the next; CNT
changes by the timer's own moves alone, and nothing else changes. The PHASE and the step of the end are the model's choice
(assumption log 31). -/
def Obligations.ElapsedReadsCounter : Prop :=
  decodeCmd 0x01000000 = .ok .tmrElapsed ∧ ∀ s : State, s.inputs = [] → s.port.opbusy = true →
    ∃ t a b, exec .tmrElapsed s = .next t ∧ t = { s with phase := .tmrWait, todo := t.todo } ∧ step t = .next a ∧
      step a = .next b ∧ EndedWith .ok a.cnt s b ∧ b.obs.log = s.obs.log ++ [.tread a.cnt] ∧
      a.cnt = (advanceTimer t).cnt ∧ b.cnt = (advanceTimer a).cnt ∧ b.par = s.par ∧ b.port.cmd = s.port.cmd ∧
      b.port.arg = s.port.arg ∧ b.port.wbuf = s.port.wbuf ∧ b.port.rbuf = s.port.rbuf ∧ b.sns = s.sns ∧ b.lcd = s.lcd ∧
      b.cfg = s.cfg ∧ b.set = s.set ∧ b.ac = s.ac ∧ b.toflag = s.toflag ∧ b.work = s.work ∧
      b.obs.pastRuns = s.obs.pastRuns

/-- R87: TMR.RESET_WAIT resets the counter and reads it until it is at least ARG; VAL is that read, and CNT runs on. `ks` are the
ticks before the reads that find it below, `k` those before the last, `k'` those before the end, which is a step of its own
(assumption log 31). -/
def Obligations.ResetWaitWaits : Prop :=
  ∀ (s : State) (k0 k k' : Nat) (ks rest : List Nat), s.inputs = [] → s.port.opbusy = true →
    s.env.ticks = k0 :: (ks ++ k :: k' :: rest) → ks.sum < s.port.arg.toNat ∨ ks = [] →
    s.port.arg.toNat ≤ ks.sum + k → ks.sum + k < cntSpan s.par →
    ∃ t, exec .tmrResetWait s = .next t ∧ t.phase = .tmrWait ∧
      ∃ u, runs (ks.length + 3) t = .next u ∧ EndedWith .ok (BitVec.ofNat 32 (ks.sum + k)) s u ∧
        u.cnt = later s.par (BitVec.ofNat 32 (ks.sum + k)) k' ∧
        u.obs.log = s.obs.log ++ [.treset] ++
          (List.range ks.length).map (fun j => .tread (BitVec.ofNat 32 (ks.take (j + 1)).sum)) ++
          [.tread (BitVec.ofNat 32 (ks.sum + k))] ∧
        u.par = s.par ∧ u.sns = s.sns ∧ u.lcd = s.lcd ∧ u.cfg = s.cfg ∧ u.set = s.set ∧ u.ac = s.ac ∧
        u.toflag = s.toflag ∧ u.work = s.work ∧ u.port.rbuf = s.port.rbuf ∧ u.port.wbuf = s.port.wbuf ∧
        u.port.arg = s.port.arg ∧ u.obs.pastRuns = s.obs.pastRuns

/-! ### Sensor -/

/-- R98 to R102, R105, R106, R115: an SNS.READ all of whose pulses keep their limits, with any number of samples in each, ends with
the decoded frame, or with ChecksumMismatch and never a value, with the pin at rest and nothing of the LCD touched. The log is
the idle check's, the request (output, low, the hold, released, input, the wait), and each pulse's. With FRAME_BITS other than
40 the frame's bytes are the model's reading (assumption log 33). -/
def Obligations.SensorReadsFrame : Prop :=
  ∀ (s : State) (r : Reading) (fb : List Byte) (rest : List Nat) (rest' : List Bool), s.inputs = [] →
    s.port.opbusy = true → r.Fits s.par → r.pulses.length = 2 + 2 * s.par.frameBits →
    fb = decodeFrame s.par.bitThreshold s.par.frameBits r.highs →
    s.env.ticks = r.ticks s.par ++ [0, 0, 0, 0] ++ rest → s.env.line = r.line ++ rest' →
    ∃ t, exec .snsRead s = .next t ∧ t.phase = .snsIdleCheck ∧ t.obs.log = s.obs.log ∧
      ∃ u, runs ((r.ticks s.par).length + 4) t = .next u ∧
        (if checksum fb = frameAt fb 4 then EndedWith .ok (frameVal fb) s u
          else EndedWith .checksumMismatch (mismatchVal (checksum fb) (frameAt fb 4)) s u) ∧
        u.sns = snsAtRest ∧ SensorKeeps s u ∧ u.obs.log = s.obs.log ++ r.log s.par s.cnt

/-- R108: bit 7 - j of FB[k] is the bit decided from HIGH[8k + j] by R107: 1 iff the duration is greater than
BIT_THRESHOLD; forty bits make five bytes; HUM and TEMP are the first and the second pair of bytes, high byte first. -/
def Obligations.FrameBitsMsbFirst : Prop :=
  (∀ (b0 b1 b2 b3 : Byte) (more : List Byte), humidity (b0 :: b1 :: b2 :: b3 :: more) = b0 ++ b1 ∧
    temperature (b0 :: b1 :: b2 :: b3 :: more) = b2 ++ b3) ∧
  ∀ (threshold : Word) (high : List Word), high.length = 40 → (decodeFrame threshold 40 high).length = 5 ∧
    ∀ (k : Fin 5) (j : Fin 8) (b : Byte) (h : Word), (decodeFrame threshold 40 high)[k.val]? = some b →
      high[8 * k.val + j.val]? = some h → b.getLsbD (7 - j.val) = decide (threshold.toNat < h.toNat)

/-- R109, R110: validation and output: the checksum decides between STATUS 0 with VAL = HUM, TEMP and STATUS 3 with
VAL = computed, received; no event. -/
def Obligations.ValidateFrame : Prop :=
  ∀ (s : State) (js : List Job) (b0 b1 b2 b3 b4 : Byte) (more : List Byte), s.port.opbusy = true → s.inputs = [] →
    s.todo = .validate :: js → s.work.fb = b0 :: b1 :: b2 :: b3 :: b4 :: more →
    ∃ t, step s = .next t ∧ t.obs.log = s.obs.log ∧ t.sns = s.sns ∧ SensorKeeps s t ∧
      (b0 + b1 + b2 + b3 = b4 → EndedWith .ok (b0 ++ b1 ++ b2 ++ b3) s t) ∧
      (b0 + b1 + b2 + b3 ≠ b4 → EndedWith .checksumMismatch (0#16 ++ (b0 + b1 + b2 + b3) ++ b4) s t)

/-- R90, R99, R162: the idle check. Each entry of `ds` is a sample of a low line and a check, with the ticks before each of the two,
and no check finds more than IDLE_TIMEOUT ticks since the first read. If the next check finds more, SNS.READ ends with
SensorBusy, by the raise that follows the check, and the pin an input, never having been made an output; if the next sample is
high, the wait ends with OK, no read follows the sample, and the request comes next. The log of each is whole. -/
def Obligations.SensorBusyOnLowLine : Prop :=
  ∀ (s : State) (a b x y : Nat) (ds : List (Nat × Nat)) (rest : List Nat) (rest' : List Bool) (c : Word), s.inputs = [] →
    s.port.opbusy = true → s.env.ticks = a :: b :: (heldDraws true ds ++ x :: y :: rest) →
    heldTicks ds ≤ s.par.idleTimeout.toNat → c = later s.par s.cnt (a + b) →
    ∃ t, exec .snsRead s = .next t ∧
      (s.env.line = List.replicate (ds.length + 1) false ++ rest' →
        s.par.idleTimeout.toNat < heldTicks ds + x + y → heldTicks ds + x + y < cntSpan s.par →
        ∃ u, runs (2 * ds.length + 5) t = .next u ∧ RaisedError .sensorBusy s u ∧ u.sns = ⟨.inPu, s.sns.drv⟩ ∧
          SensorKeeps s u ∧
          u.obs.log = s.obs.log ++ [.snsCfg .inPu, .tread c] ++ heldLog s.par true false c (ds ++ [(x, y)])) ∧
      (s.env.line = List.replicate ds.length false ++ true :: rest' →
        ∃ u, runs (2 * ds.length + 3) t = .next u ∧ u.port = s.port ∧
          u.obs.log = s.obs.log ++ [.snsCfg .inPu, .tread c] ++ heldLog s.par true false c ds ++ [.snsSample true] ∧
          u.sns = ⟨.inPu, s.sns.drv⟩ ∧ u.todo = requestJobs s.par ++ ackJobs s.par ++ receiveJobs ∧ SensorKeeps s u)

/-- R89, R101, R102, R104: the bounded measurement's check, while the line is still at the level, raises AckTimeout exactly when
the elapsed ticks are greater than the limit, in the step after it (R162), and else samples again. And an SNS.READ whose first
too long pulse has the limit `l` ends with AckTimeout: after the check that finds more than `l` ticks while the line is still at
the level, or after the read that ends the pulse; no event follows. Elapsed ticks are modulo 2^CNT_WIDTH, 2^32 by default (log
33). -/
def Obligations.AckTimeoutPastLimit : Prop :=
  (∀ (s : State) (level : Bool) (limit : Word) (dst : PulseTo) (js : List Job), s.port.opbusy = true → s.inputs = [] →
    s.todo = .pulseCheck level limit dst :: js →
    ∃ t, step s = .next t ∧ t.obs.log = s.obs.log ++ [.tread (advanceTimer s).cnt] ∧ t.sns = s.sns ∧ t.port = s.port ∧
      t.work = s.work ∧ SensorKeeps s t ∧
      if limit.toNat < (elapsed s.par (advanceTimer s).cnt s.work.t0).toNat then
        ∃ u, step t = .next u ∧ RaisedError .ackTimeout s u ∧ u.obs.log = t.obs.log ∧ u.sns = s.sns ∧ SensorKeeps s u
      else t.todo = .pulse level (some limit) dst :: js) ∧
  ∀ (s : State) (r : Reading) (j : Nat) (l : Word) (p : Pulse) (draws rest : List Nat) (line rest' : List Bool)
    (evs : List Event), s.inputs = [] → s.port.opbusy = true → r.Fits s.par → j = r.pulses.length →
    j < 2 + 2 * s.par.frameBits → pulseLimit s.par j = some l → heldTicks p.held ≤ l.toNat →
    l.toNat < p.span → p.span < cntSpan s.par →
    (draws, line, evs) = (p.draws true, p.line (pulseLevel j), p.log s.par true (pulseLevel j) (r.count s.par)) ∨
      (draws, line, evs) = (p.snap :: heldDraws true (p.held ++ [(p.last, p.done)]),
        List.replicate (p.held.length + 1) (pulseLevel j), [.tread (later s.par (r.count s.par) p.snap)] ++
          heldLog s.par true (pulseLevel j) (later s.par (r.count s.par) p.snap) (p.held ++ [(p.last, p.done)])) →
    s.env.ticks = r.ticks s.par ++ pulseGap j ++ draws ++ rest → s.env.line = r.line ++ line ++ rest' →
    ∃ t, exec .snsRead s = .next t ∧
      ∃ u, runs ((r.ticks s.par ++ pulseGap j ++ draws).length + 1) t = .next u ∧ RaisedError .ackTimeout s u ∧
        u.sns = snsAtRest ∧ SensorKeeps s u ∧ u.obs.log = s.obs.log ++ r.log s.par s.cnt ++ evs

/-- R88, R89, R105, R106: a measurement's steps. A sample at the level goes on, by a check where there is a limit and by another
sample where there is none; the first sample at the other level is followed by the counter read that ends the measurement. A
duration past the limit then raises AckTimeout, in the step after that read (R162); any other is the result, and goes into LOW[I]
or HIGH[I] where the measurement is a bit's. And a measurement of any number of samples, from its snapshot on. Elapsed ticks are
modulo 2^CNT_WIDTH, 2^32 by default (log 33). -/
def Obligations.MeasurementEnds : Prop :=
  (∀ (s : State) (level v : Bool) (limit : Option Word) (dst : PulseTo) (js : List Job) (rest' : List Bool),
    s.port.opbusy = true → s.inputs = [] → s.sns = snsAtRest → s.todo = .pulse level limit dst :: js →
    s.env.line = v :: rest' →
    ∃ t, step s = .next t ∧ t.obs.log = s.obs.log ++ [.snsSample v] ∧ t.env.line = rest' ∧ t.sns = s.sns ∧
      t.port = s.port ∧ t.work = s.work ∧ t.cnt = (advanceTimer s).cnt ∧ SensorKeeps s t ∧
      t.todo = (if v = level then
          match limit with
          | none => .pulse level none dst
          | some l => .pulseCheck level l dst
        else .pulseEnd limit dst) :: js) ∧
  (∀ (s : State) (limit : Option Word) (dst : PulseTo) (js : List Job) (d : Word), s.port.opbusy = true →
    s.inputs = [] → s.todo = .pulseEnd limit dst :: js → d = elapsed s.par (advanceTimer s).cnt s.work.t0 →
    ∃ t, step s = .next t ∧ t.obs.log = s.obs.log ++ [.tread (advanceTimer s).cnt] ∧ t.sns = s.sns ∧ t.port = s.port ∧
      t.cnt = (advanceTimer s).cnt ∧ SensorKeeps s t ∧
      ((∃ l, limit = some l ∧ l.toNat < d.toNat) →
        ∃ u, step t = .next u ∧ RaisedError .ackTimeout s u ∧ u.obs.log = t.obs.log ∧ u.sns = s.sns ∧ SensorKeeps s u) ∧
      ((∀ l, limit = some l → d.toNat ≤ l.toNat) → t.todo = js ∧
        t.work = match dst with
          | .discard => s.work
          | .low => { s.work with low := storeAt s.work.low s.work.i d }
          | .high => { s.work with high := storeAt s.work.high s.work.i d })) ∧
  ∀ (s : State) (level : Bool) (limit : Option Word) (dst : PulseTo) (js : List Job) (p : Pulse) (d : Word) (w : Work)
    (rest : List Nat) (rest' : List Bool), s.port.opbusy = true → s.inputs = [] → s.sns = snsAtRest →
    s.todo = measurePulse level limit dst ++ js → p.Fits s.par limit → d = BitVec.ofNat 32 p.span →
    w = { s.work with t0 := later s.par s.cnt p.snap } → s.env.ticks = p.draws limit.isSome ++ rest →
    s.env.line = p.line level ++ rest' →
    ∃ u, runs (p.draws limit.isSome).length s = .next u ∧ u.todo = js ∧ u.port = s.port ∧ u.sns = s.sns ∧
      u.cnt = later s.par s.cnt (p.snap + p.span) ∧ u.env.ticks = rest ∧ u.env.line = rest' ∧ SensorKeeps s u ∧
      u.obs.log = s.obs.log ++ p.log s.par limit.isSome level s.cnt ∧
      u.work = match dst with
        | .discard => w
        | .low => { w with low := storeAt w.low w.i d }
        | .high => { w with high := storeAt w.high w.i d }

/-- R106: with no limit on data-bit pulses a line stuck at the measured level keeps the controller in its loop: no event but
the samples, OPBUSY = 1. -/
def Obligations.StuckLineNeverEnds : Prop :=
  ∀ (n : Nat) (s : State) (level : Bool) (dst : PulseTo) (js : List Job) (rest : List Bool), s.port.opbusy = true →
    s.inputs = [] → s.sns = snsAtRest → s.todo = .pulse level none dst :: js →
    s.env.line = List.replicate n level ++ rest →
    ∃ u, runs n s = .next u ∧ u.port = s.port ∧ u.todo = s.todo ∧ u.sns = s.sns ∧
      u.obs.log = s.obs.log ++ List.replicate n (.snsSample level)

/-- R107: the low durations never affect a result: two runs that differ only in LOW go alike and differ only in LOW. -/
def Obligations.LowDurationsNeverMatter : Prop :=
  ∀ (n : Nat) (s : State) (low : List Word),
    match runs n s, runs n { s with work.low := low } with
    | .next t, .next t' => { t with work.low := low } = { t' with work.low := low }
    | .fault r, .fault r' => r = r'
    | .refused r, .refused r' => r = r'
    | _, _ => False

/-! ### LCD bus -/

/-- R122, R134: the events of a write cycle, in order, each wait at least its constant and over at the first read that reaches
it; the pins as it leaves them: DOUT is the byte driven, or has the nibble in DOUT[7:4] and DOUT[3:0] as before. -/
def Obligations.WriteCycleEvents : Prop :=
  ∀ (s : State) (rs : Bool) (v : DataVal) (js : List Job), Paced 20 s → s.todo = busCycleWrite s.par rs v ++ js →
    ∃ k u evs, runs k s = .next u ∧ u.todo = js ∧ TransferKeeps { s with todo := js } u ∧ u.work = s.work ∧ u.ac = s.ac ∧
      u.env.line = s.env.line ∧ u.env.pins = s.env.pins ∧
      u.lcd = ⟨rs, if s.par.hasRw then false else s.lcd.rw, false, .out, driven s.lcd.dout v⟩ ∧
      (∀ b, v = .byte b → u.lcd.dout = b) ∧
      (∀ n, v = .nibble n → u.lcd.dout.extractLsb' 4 4 = n ∧
        u.lcd.dout.extractLsb' 0 4 = s.lcd.dout.extractLsb' 0 4) ∧
      u.obs.log = s.obs.log ++ evs ∧ shows evs (writeCycleItems s.par rs v) = true

/-- R122: the events of a read cycle, in order: the sample comes while E = 1, after the hold. -/
def Obligations.ReadCycleEvents : Prop :=
  ∀ (s : State) (rs : Bool) (lane : Lane) (p : Byte) (ps : List Byte) (js : List Job), Paced 20 s →
    s.par.hasRw = true → s.env.pins = p :: ps → s.todo = busCycleRead s.par rs lane ++ js →
    ∃ k u evs, runs k s = .next u ∧ u.todo = js ∧ TransferKeeps { s with todo := js } u ∧ u.ac = s.ac ∧
      u.env.line = s.env.line ∧ u.env.pins = ps ∧ u.lcd = ⟨rs, true, false, .inp, s.lcd.dout⟩ ∧
      u.obs.log = s.obs.log ++ evs ∧
      shows evs (readCycleItems s.par rs (if lane = .full then .byte p else .nibble (p.extractLsb' 4 4))) = true

/-- R70 to R75, R77, R123 to R125, R131: each write transfer sends its byte, in one cycle or in two by CFG_DL, with the RS
level of its kind, and then updates AC_SHADOW as R131 says; NIB3 and NIB2 are one command cycle, with the nibble on
LCD_D[7:4]. A transfer leaves the bus idle and the operation's other jobs as they were. -/
def Obligations.WriteTransfersComplete : Prop :=
  ∀ (s : State) (i : Instr) (items : List Item) (ac : BitVec 7), Paced 60 s →
    ((i, items, ac) = (.busClearDisplay, writeItems s.par s.cfg.dl false 0x01, 0) ∨
      (∃ x, (i, items, ac) = (.busReturnHome x, writeItems s.par s.cfg.dl false (returnHomeByte x), 0)) ∨
      (∃ e h, (i, items, ac) = (.busEntryModeSet e h, writeItems s.par s.cfg.dl false (entryModeByte e h), s.ac)) ∨
      (∃ d c k, (i, items, ac) =
        (.busDisplayControl d c k, writeItems s.par s.cfg.dl false (displayControlByte d c k), s.ac)) ∨
      (∃ dl n f, (i, items, ac) =
        (.busFunctionSet dl n f, writeItems s.par s.cfg.dl false (functionSetByte dl n f), s.ac)) ∨
      (i, items, ac) = (.busNib3, nibbleItems s.par s.cfg.dl 3, s.ac) ∨
      (i, items, ac) = (.busNib2, nibbleItems s.par s.cfg.dl 2, s.ac) ∨
      (∃ a, (i, items, ac) = (.busSetDdramAddress a, writeItems s.par s.cfg.dl false (setDdramByte a), a)) ∨
      (∃ v, (i, items, ac) = (.busDataWrite v, writeItems s.par s.cfg.dl true v, s.ac + 1))) →
    ∃ t, exec i s = .next t ∧ ∃ k u evs, runs k t = .next u ∧ TransferKeeps s u ∧ u.work = s.work ∧ u.ac = ac ∧
      u.lcd.e = false ∧ u.obs.log = s.obs.log ++ evs ∧ shows evs items = true

/-- R69, R126, R127, R131: a busy read (RS = 0) and a data read (RS = 1) collect the controller's byte, high nibble first on a
4-bit bus, and update AC_SHADOW. They need an RW pin. -/
def Obligations.ReadTransfersComplete : Prop :=
  ∀ (s : State) (i : Instr) (rs : Bool) (ac : BitVec 7), Paced 60 s → s.par.hasRw = true →
    1 ≤ (answers s.cfg.dl s.env.pins).length →
    ((i, rs, ac) = (.busBusyRead, false, addressCounter (answer s.cfg.dl s 0)) ∨
      (i, rs, ac) = (.busDataRead, true, s.ac + 1)) →
    ∃ t, exec i s = .next t ∧ ∃ k u evs, runs k t = .next u ∧ TransferKeeps s u ∧ u.ac = ac ∧ u.lcd.e = false ∧
      u.work.rx = answer s.cfg.dl s 0 ∧ u.obs.log = s.obs.log ++ evs ∧
      shows evs (readItems s.par s.cfg.dl rs (answer s.cfg.dl s 0)) = true

/-- Without an RW pin a busy read and a data read do not exist (R69): as a transfer they raise NotSupported, with no event,
and end the operation. That a transfer raises it is the model's choice (assumption log 12): no operation issues one. -/
def Obligations.BusReadsNeedTheReadPin : Prop :=
  ∀ (s : State) (i : Instr), i = .busBusyRead ∨ i = .busDataRead → s.par.hasRw = false → s.inputs = [] →
    s.port.opbusy = true →
    ∃ t, exec i s = .next t ∧ t.port = s.port ∧ t.obs = s.obs ∧ ∃ u, step t = .next u ∧ RaisedError .notSupported s u ∧
      u.obs.log = s.obs.log ∧ LcdKeeps s u ∧ u.lcd = s.lcd ∧ u.cfg = s.cfg ∧ u.set = s.set ∧ u.ac = s.ac ∧
      t.cnt = s.cnt ∧ u.cnt = (advanceTimer t).cnt ∧ u.port.rbuf = s.port.rbuf

/-- R128, R129: a poll whose busy flag is clear ends WaitReady; else POLLS is counted, the MAX_POLLS-th busy answer sets
TOFLAG and ends WaitReady, and an earlier one is followed by POLL_INTERVAL and another poll. With MAX_POLLS = 0 the first
busy answer ends the wait, the model's choice (assumption log 35). -/
def Obligations.PollDecision : Prop :=
  ∀ (s : State) (js : List Job), s.port.opbusy = true → s.inputs = [] → s.todo = .pollTest :: js →
    ∃ t, step s = .next t ∧ t.port = s.port ∧ t.obs = s.obs ∧ t.ac = s.ac ∧
      (s.work.rx.getLsbD 7 = false → t.todo = js ∧ t.toflag = s.toflag ∧ t.work.polls = s.work.polls) ∧
      (s.work.rx.getLsbD 7 = true → t.work.polls = s.work.polls + 1 ∧
        (s.par.maxPolls ≤ s.work.polls + 1 → t.todo = js ∧ t.toflag = true) ∧
        (s.work.polls + 1 < s.par.maxPolls → t.toflag = s.toflag ∧
          t.todo = .cntReset :: .spin s.par.pollInterval :: .poll :: js))

/-- R130: without an RW pin WaitReady is one fixed delay, BLIND_LONG or BLIND_SHORT, and never sets TOFLAG. -/
def Obligations.BlindWait : Prop :=
  ∀ (s : State) (long : Bool) (js : List Job), Paced 5 s → s.par.hasRw = false → s.todo = .waitReady long :: js →
    ∃ k u evs, runs k s = .next u ∧ u.todo = js ∧ u.toflag = s.toflag ∧ u.ac = s.ac ∧ u.port = s.port ∧ u.lcd = s.lcd ∧
      u.obs.log = s.obs.log ++ evs ∧
      shows evs [.wait (if long then s.par.blindLong else s.par.blindShort)] = true

/-! ### LCD operations: the checks -/

/-- R138: with INIT_DONE = 0 every LCD operation but LCD.INIT gives NotInitialized, before any other check (R166), with no
event and no other change. -/
def Obligations.NotInitialized : Prop :=
  ∀ (s : State) (i : Instr), needsInit i = true → i.wellFormed = true → s.cfg.initDone = false → s.inputs = [] →
    s.port.opbusy = true → FailsCheck .notInitialized i s

/-- R151 to R153, R159: with HAS_RW = 0 the reads give NotSupported, with no event. -/
def Obligations.NotSupportedWithoutReadPin : Prop :=
  ∀ (s : State) (i : Instr), needsReadPin i = true → s.cfg.initDone = true → s.par.hasRw = false → s.inputs = [] →
    s.port.opbusy = true → FailsCheck .notSupported i s

/-- R140, R141: an illegal geometry gives InvalidConfig, whatever INIT_DONE is; the previous configuration is kept. With
ROW_OFFSET = 0x00, 0x40 the legal column counts are 1 to 128 on one row and 1 to 64 on two; that they follow another ROW_OFFSET
is the model's reading (assumption log 33). -/
def Obligations.InvalidConfig : Prop :=
  (∀ (s : State) (cols : Byte) (f n dl : Bool), configLegal s.par n cols = false → s.inputs = [] →
    s.port.opbusy = true → FailsCheck .invalidConfig (.lcdInit cols f n dl) s) ∧
  ∀ (par : Params) (n : Bool) (cols : Byte), par.rowOffset0 = 0x00 → par.rowOffset1 = 0x40 →
    (configLegal par n cols = true ↔ 1 ≤ cols.toNat ∧ cols.toNat ≤ if n then 64 else 128)

/-- R147, R156: a position outside the geometry gives CursorOutOfBounds and no event, never a clamped position. -/
def Obligations.CursorOutOfBounds : Prop :=
  ∀ (s : State) (row col : Byte), s.cfg.initDone = true →
    (if s.cfg.n then 2 else 1) ≤ row.toNat ∨ s.cfg.cols.toNat ≤ col.toNat → s.inputs = [] → s.port.opbusy = true →
    FailsCheck .cursorOutOfBounds (.lcdSetCursor row col) s

/-- R46, R141: with ROW_OFFSET[0] = 0x00 and ROW_OFFSET[1] = 0x40, the defaults, every in-bounds cursor position of a legal
configuration has a 7-bit address, its row's offset plus its column. -/
def Obligations.CursorAddressFits : Prop :=
  (∀ hz rw, (Config.paramsAt hz rw).rowOffset0 = 0x00 ∧ (Config.paramsAt hz rw).rowOffset1 = 0x40) ∧
  ∀ (par : Params) (cfg : LcdConfig) (row col : Byte), par.rowOffset0 = 0x00 → par.rowOffset1 = 0x40 →
    configLegal par cfg.n cfg.cols = true → cursorInBounds cfg row col = true →
    (cursorAddr par row col).toNat = (if row.toNat = 0 then 0 else 0x40) + col.toNat ∧ (cursorAddr par row col).toNat < 0x80

/-! ### LCD operations: from start to end

Each says that from its acceptance the operation runs to its end as its rule's pseudocode has it (`EndsAs`), whatever the
controller answers: the whole log with every wait, STATUS 0 or 4, VAL, and what is left of the registers. With MAX_POLLS = 0 a wait until
ready makes one poll, which is the model's choice (assumption log 35). -/

/-- R140: LCD.INIT with a legal geometry runs its whole sequence, the waits between the function sets included, and leaves the
configuration, the settings off, INIT_DONE = 1 and AC_SHADOW as the clear and the last waits leave it. -/
def Obligations.InitCompletes : Prop :=
  ∀ (s : State) (cols : Byte) (f n dl : Bool), configLegal s.par n cols = true → s.par.legal = true →
    Paced (300 * (s.par.maxPolls + 2)) s → Answered dl 4 s →
    ∃ t, exec (.lcdInit cols f n dl) s = .next t ∧ t.cfg = ⟨dl, n, f, cols, false⟩ ∧ t.obs.log = s.obs.log ∧
      EndsAs (initCourse dl n f s) 0 ⟨false, false, false⟩ ⟨dl, n, f, cols, true⟩ s.port.rbuf.read s t

/-- R143: LCD.SET_DISPLAY sends 0b00001DCB, waits, and sets the settings, even if the wait times out. -/
def Obligations.SetDisplayCompletes : Prop :=
  ∀ (s : State) (d c b : Bool), s.cfg.initDone = true → Paced (50 * (s.par.maxPolls + 2)) s → Answered s.cfg.dl 1 s →
    ∃ t, exec (.lcdSetDisplay d c b) s = .next t ∧ LcdStarted s t ∧
      EndsAs (((Course.start s.cfg.dl s).send false
        (0b00001#5 ++ BitVec.ofBool d ++ BitVec.ofBool c ++ BitVec.ofBool b)).wait false) 0 ⟨d, c, b⟩ s.cfg
        s.port.rbuf.read s t

/-- R144, R145: LCD.CLEAR sends 0x01 and LCD.HOME 0x02, AC_SHADOW becomes 0, and the wait is the long one. -/
def Obligations.ClearAndHomeComplete : Prop :=
  ∀ (s : State) (i : Instr) (byte : Byte), (i, byte) = (.lcdClear, 0x01) ∨ (i, byte) = (.lcdHome, 0x02) →
    s.cfg.initDone = true → Paced (50 * (s.par.maxPolls + 2)) s → Answered s.cfg.dl 1 s →
    ∃ t, exec i s = .next t ∧ LcdStarted s t ∧
      EndsAs ((((Course.start s.cfg.dl s).send false byte).setAc 0).wait true) 0 s.set s.cfg s.port.rbuf.read s t

/-- R146: LCD.SET_ADDRESS sends 0x80 | a and AC_SHADOW follows, for every 7-bit address. -/
def Obligations.SetAddressCompletes : Prop :=
  ∀ (s : State) (addr : Byte), addr.toNat < 0x80 → s.cfg.initDone = true → Paced (50 * (s.par.maxPolls + 2)) s →
    Answered s.cfg.dl 1 s →
    ∃ t, exec (.lcdSetAddress addr) s = .next t ∧ LcdStarted s t ∧
      EndsAs ((((Course.start s.cfg.dl s).send false (0x80 ||| addr)).setAc (addr.setWidth 7)).wait false) 0 s.set s.cfg
        s.port.rbuf.read s t

/-- R147, R156: an in-bounds LCD.SET_CURSOR sends exactly one set-address transfer, 0x80 | (ROW_OFFSET[row] + col), followed by
one wait alone, and answers VAL = 1. -/
def Obligations.SetCursorCompletes : Prop :=
  ∀ (s : State) (row col addr : Byte), s.cfg.initDone = true → configLegal s.par s.cfg.n s.cfg.cols = true →
    cursorInBounds s.cfg row col = true →
    addr = (if row.toNat = 0 then s.par.rowOffset0 else s.par.rowOffset1) + col →
    Paced (50 * (s.par.maxPolls + 2)) s → Answered s.cfg.dl 1 s →
    ∃ t, exec (.lcdSetCursor row col) s = .next t ∧ LcdStarted s t ∧
      EndsAs ((((Course.start s.cfg.dl s).send false (0x80 ||| addr)).setAc (addr.setWidth 7)).wait false) 1 s.set s.cfg
        s.port.rbuf.read s t

/-- R148: LCD.WRITE sends its byte with RS = 1, AC_SHADOW advances, VAL = 1. -/
def Obligations.WriteCompletes : Prop :=
  ∀ (s : State) (data : Byte), s.cfg.initDone = true → Paced (50 * (s.par.maxPolls + 2)) s → Answered s.cfg.dl 1 s →
    ∃ t, exec (.lcdWrite data) s = .next t ∧ LcdStarted s t ∧
      EndsAs ((Course.start s.cfg.dl s).writeData data) 1 s.set s.cfg s.port.rbuf.read s t

/-- R149, R150: LCD.WRITE_ROW makes the busy-flag query where there is an RW pin, writes WBUF[0..m-1] for
m = min(n, Remaining(AC_SHADOW)), with a wait after each byte, and answers VAL = m. With ROW_OFFSET = 0x00, 0x40, the defaults,
Remaining is R150's; with another ROW_OFFSET it is the model's reading (assumption log 33). -/
def Obligations.WriteRowCompletes : Prop :=
  (∀ (par : Params) (cfg : LcdConfig) (a : BitVec 7), par.rowOffset0 = 0x00 → par.rowOffset1 = 0x40 →
    remaining par cfg a =
      if a.toNat < cfg.cols.toNat then cfg.cols.toNat - a.toNat
      else if cfg.n = true ∧ 0x40 ≤ a.toNat ∧ a.toNat < 0x40 + cfg.cols.toNat then 0x40 + cfg.cols.toNat - a.toNat
      else 0) ∧
  ∀ (s : State) (n : Byte) (m : Nat) (x : Course), s.cfg.initDone = true →
    Paced (50 * (s.par.maxPolls + 2) * (n.toNat + 2)) s → Answered s.cfg.dl (n.toNat + 1) s →
    x = (if s.par.hasRw then (Course.start s.cfg.dl s).wait false else Course.start s.cfg.dl s) →
    m = min n.toNat (remaining s.par s.cfg x.ac) → m ≤ s.par.bufSize →
    ∃ t, exec (.lcdWriteRow n) s = .next t ∧ LcdStarted s t ∧
      EndsAs (((List.range m).map s.port.wbuf.read).foldl Course.writeData x) (BitVec.ofNat 32 m) s.set s.cfg
        s.port.rbuf.read s t

/-- R151: LCD.READ is one data read and a wait, and answers the controller's byte. -/
def Obligations.ReadCompletes : Prop :=
  ∀ (s : State) (x : Course), s.cfg.initDone = true → s.par.hasRw = true → Paced (50 * (s.par.maxPolls + 2)) s →
    Answered s.cfg.dl 1 s → x = (Course.start s.cfg.dl s).dataRead.wait false →
    ∃ t, exec .lcdRead s = .next t ∧ LcdStarted s t ∧
      EndsAs x ((answer s.cfg.dl s 0).setWidth 32) s.set s.cfg s.port.rbuf.read s t

/-- R152: LCD.READ_ROW is n data reads, each with its wait; it puts the n bytes into RBUF[0..n-1], leaves the rest of RBUF, and
answers VAL = n. With n = 0 it appends no event. -/
def Obligations.ReadRowCompletes : Prop :=
  ∀ (s : State) (n : Byte) (x : Course), s.cfg.initDone = true → s.par.hasRw = true → s.port.rbuf.wf = true →
    Paced (50 * (s.par.maxPolls + 2) * (n.toNat + 2)) s → Answered s.cfg.dl n.toNat s → n.toNat ≤ s.par.bufSize →
    x = Course.readRow n.toNat (Course.start s.cfg.dl s) → x.got.length = n.toNat ∧
    ∃ t, exec (.lcdReadRow n) s = .next t ∧ t.obs.log = s.obs.log ∧
      EndsAs x (n.setWidth 32) s.set s.cfg (fun a => if a < n.toNat then x.got.getD a 0 else s.port.rbuf.read a) s t

/-- R153: LCD.IS_BUSY is one busy read: VAL[7] = BF, VAL[6:0] = AC, STATUS 0 whatever the flag, no wait. -/
def Obligations.IsBusyCompletes : Prop :=
  ∀ s : State, s.cfg.initDone = true → s.par.hasRw = true → Paced 60 s → 1 ≤ (answers s.cfg.dl s.env.pins).length →
    ∃ t, exec .lcdIsBusy s = .next t ∧ LcdStarted s t ∧
      EndsAs (Course.start s.cfg.dl s).busyRead ((answer s.cfg.dl s 0).setWidth 32) s.set s.cfg s.port.rbuf.read s t

/-- R154: LCD.GET_SETTINGS answers the cached configuration and settings, with no event and no other change. That its end is the
step after its acceptance, with one move of the timer between them, is the model's choice (assumption log 31). -/
def Obligations.GetSettingsIsLocal : Prop :=
  ∀ s : State, s.cfg.initDone = true → s.inputs = [] → s.port.opbusy = true →
    ∃ t, exec .lcdGetSettings s = .next t ∧ LcdStarted s t ∧ ∃ u, step t = .next u ∧ EndedWith .ok u.port.val s u ∧
      u.port.val.getLsbD 31 = s.cfg.initDone ∧ u.port.val.extractLsb' 16 8 = s.cfg.cols ∧
      u.port.val.getLsbD 10 = s.cfg.f ∧ u.port.val.getLsbD 9 = s.cfg.n ∧ u.port.val.getLsbD 8 = s.cfg.dl ∧
      u.port.val.getLsbD 2 = s.set.d ∧ u.port.val.getLsbD 1 = s.set.c ∧ u.port.val.getLsbD 0 = s.set.b ∧
      u.port.val &&& 0x7F00F8F8 = 0 ∧ u.obs.log = s.obs.log ∧ LcdKeeps s u ∧ u.lcd = s.lcd ∧ u.cfg = s.cfg ∧
      u.set = s.set ∧ u.ac = s.ac ∧ u.cnt = (advanceTimer s).cnt ∧ u.port.rbuf = s.port.rbuf

/-- R128, R129, R165: a controller that never gets ready is not fatal. After exactly MAX_POLLS busy reads, POLL_INTERVAL apart,
each of the operations that make one transfer goes on, does every step of its rule and ends with STATUS 4 and the VAL of its
success. (The statements above say the same of LCD.INIT, the row operations and LCD.READ, whose course is late then.) -/
def Obligations.ControllerTimeoutNotFatal : Prop :=
  ∀ (s : State) (i : Instr) (rs : Bool) (byte : Byte) (v : Word) (set : Settings), s.cfg.initDone = true →
    1 ≤ s.par.maxPolls → s.par.hasRw = true → Paced (50 * (s.par.maxPolls + 2)) s →
    ControllerBusy s.cfg.dl s.par.maxPolls s →
    ((∃ d c b, (i, rs, byte, v, set) = (.lcdSetDisplay d c b, false, displayControlByte d c b, 0, ⟨d, c, b⟩)) ∨
      (i, rs, byte, v, set) = (.lcdClear, false, 0x01, 0, s.set) ∨ (i, rs, byte, v, set) = (.lcdHome, false, 0x02, 0, s.set) ∨
      (∃ a : BitVec 7, (i, rs, byte, v, set) = (.lcdSetAddress (0#1 ++ a), false, 0b1#1 ++ a, 0, s.set)) ∨
      (∃ row col, configLegal s.par s.cfg.n s.cfg.cols = true ∧ cursorInBounds s.cfg row col = true ∧
        (i, rs, byte, v, set) = (.lcdSetCursor row col, false, 0x80 ||| cursorAddr s.par row col, 1, s.set)) ∨
      (∃ d, (i, rs, byte, v, set) = (.lcdWrite d, true, d, 1, s.set))) →
    ∃ t, exec i s = .next t ∧ LcdStarted s t ∧
      ∃ k u evs, runs k t = .next u ∧ EndedWith .controllerTimeout v s u ∧ u.port.status = 4 ∧ u.set = set ∧
        u.cfg = s.cfg ∧ u.ac = addressCounter (answer s.cfg.dl s (s.par.maxPolls - 1)) ∧ u.lcd.e = false ∧
        u.obs.log = s.obs.log ++ evs ∧
        shows evs (writeItems s.par s.cfg.dl rs byte ++
          pollItems s.par s.cfg.dl ((answers s.cfg.dl s.env.pins).take s.par.maxPolls)) = true ∧
        LcdKeeps s u ∧ ∀ a, u.port.rbuf.read a = s.port.rbuf.read a
end

