-- ==== Sys2Proof/Laws/State.lean ====
section
/-! SUPPORT. One lemma for each field under each named update of the state, true by rfl, so that no later proof unfolds a
record update. -/

namespace Sys2Proof.Machine

/-! ### emit -/

@[simp] theorem emit_par (ev : Event) (s : State) : (emit ev s).par = s.par := rfl
@[simp] theorem emit_port (ev : Event) (s : State) : (emit ev s).port = s.port := rfl
@[simp] theorem emit_cnt (ev : Event) (s : State) : (emit ev s).cnt = s.cnt := rfl
@[simp] theorem emit_sns (ev : Event) (s : State) : (emit ev s).sns = s.sns := rfl
@[simp] theorem emit_lcd (ev : Event) (s : State) : (emit ev s).lcd = s.lcd := rfl
@[simp] theorem emit_cfg (ev : Event) (s : State) : (emit ev s).cfg = s.cfg := rfl
@[simp] theorem emit_set (ev : Event) (s : State) : (emit ev s).set = s.set := rfl
@[simp] theorem emit_ac (ev : Event) (s : State) : (emit ev s).ac = s.ac := rfl
@[simp] theorem emit_toflag (ev : Event) (s : State) : (emit ev s).toflag = s.toflag := rfl
@[simp] theorem emit_phase (ev : Event) (s : State) : (emit ev s).phase = s.phase := rfl
@[simp] theorem emit_work (ev : Event) (s : State) : (emit ev s).work = s.work := rfl
@[simp] theorem emit_obs (ev : Event) (s : State) : (emit ev s).obs = { s.obs with log := s.obs.log ++ [ev] } := rfl
@[simp] theorem emit_todo (ev : Event) (s : State) : (emit ev s).todo = s.todo := rfl
@[simp] theorem emit_inputs (ev : Event) (s : State) : (emit ev s).inputs = s.inputs := rfl
@[simp] theorem emit_env (ev : Event) (s : State) : (emit ev s).env = s.env := rfl
@[simp] theorem emit_draws (ev : Event) (s : State) : (emit ev s).draws = s.draws := rfl

/-! ### tick -/

@[simp] theorem tick_par (s : State) : (tick s).par = s.par := rfl
@[simp] theorem tick_port (s : State) : (tick s).port = s.port := rfl
@[simp] theorem tick_cnt (s : State) : (tick s).cnt = wrapCnt s.par (s.cnt + 1) := rfl
@[simp] theorem tick_sns (s : State) : (tick s).sns = s.sns := rfl
@[simp] theorem tick_lcd (s : State) : (tick s).lcd = s.lcd := rfl
@[simp] theorem tick_cfg (s : State) : (tick s).cfg = s.cfg := rfl
@[simp] theorem tick_set (s : State) : (tick s).set = s.set := rfl
@[simp] theorem tick_ac (s : State) : (tick s).ac = s.ac := rfl
@[simp] theorem tick_toflag (s : State) : (tick s).toflag = s.toflag := rfl
@[simp] theorem tick_phase (s : State) : (tick s).phase = s.phase := rfl
@[simp] theorem tick_work (s : State) : (tick s).work = s.work := rfl
@[simp] theorem tick_obs (s : State) : (tick s).obs = s.obs := rfl
@[simp] theorem tick_todo (s : State) : (tick s).todo = s.todo := rfl
@[simp] theorem tick_inputs (s : State) : (tick s).inputs = s.inputs := rfl
@[simp] theorem tick_env (s : State) : (tick s).env = s.env := rfl
@[simp] theorem tick_draws (s : State) : (tick s).draws = s.draws := rfl

/-! ### ticks -/

@[simp] theorem ticks_par (k : Nat) (s : State) : (ticks k s).par = s.par := rfl
@[simp] theorem ticks_port (k : Nat) (s : State) : (ticks k s).port = s.port := rfl
@[simp] theorem ticks_cnt (k : Nat) (s : State) : (ticks k s).cnt = wrapCnt s.par (s.cnt + BitVec.ofNat 32 k) := rfl
@[simp] theorem ticks_sns (k : Nat) (s : State) : (ticks k s).sns = s.sns := rfl
@[simp] theorem ticks_lcd (k : Nat) (s : State) : (ticks k s).lcd = s.lcd := rfl
@[simp] theorem ticks_cfg (k : Nat) (s : State) : (ticks k s).cfg = s.cfg := rfl
@[simp] theorem ticks_set (k : Nat) (s : State) : (ticks k s).set = s.set := rfl
@[simp] theorem ticks_ac (k : Nat) (s : State) : (ticks k s).ac = s.ac := rfl
@[simp] theorem ticks_toflag (k : Nat) (s : State) : (ticks k s).toflag = s.toflag := rfl
@[simp] theorem ticks_phase (k : Nat) (s : State) : (ticks k s).phase = s.phase := rfl
@[simp] theorem ticks_work (k : Nat) (s : State) : (ticks k s).work = s.work := rfl
@[simp] theorem ticks_obs (k : Nat) (s : State) : (ticks k s).obs = s.obs := rfl
@[simp] theorem ticks_todo (k : Nat) (s : State) : (ticks k s).todo = s.todo := rfl
@[simp] theorem ticks_inputs (k : Nat) (s : State) : (ticks k s).inputs = s.inputs := rfl
@[simp] theorem ticks_env (k : Nat) (s : State) : (ticks k s).env = s.env := rfl
@[simp] theorem ticks_draws (k : Nat) (s : State) : (ticks k s).draws = s.draws := rfl

/-! ### cntReset -/

@[simp] theorem cntReset_par (s : State) : (cntReset s).par = s.par := rfl
@[simp] theorem cntReset_port (s : State) : (cntReset s).port = s.port := rfl
@[simp] theorem cntReset_cnt (s : State) : (cntReset s).cnt = 0 := rfl
@[simp] theorem cntReset_sns (s : State) : (cntReset s).sns = s.sns := rfl
@[simp] theorem cntReset_lcd (s : State) : (cntReset s).lcd = s.lcd := rfl
@[simp] theorem cntReset_cfg (s : State) : (cntReset s).cfg = s.cfg := rfl
@[simp] theorem cntReset_set (s : State) : (cntReset s).set = s.set := rfl
@[simp] theorem cntReset_ac (s : State) : (cntReset s).ac = s.ac := rfl
@[simp] theorem cntReset_toflag (s : State) : (cntReset s).toflag = s.toflag := rfl
@[simp] theorem cntReset_phase (s : State) : (cntReset s).phase = s.phase := rfl
@[simp] theorem cntReset_work (s : State) : (cntReset s).work = s.work := rfl
@[simp] theorem cntReset_obs (s : State) : (cntReset s).obs = { s.obs with log := s.obs.log ++ [.treset] } := rfl
@[simp] theorem cntReset_todo (s : State) : (cntReset s).todo = s.todo := rfl
@[simp] theorem cntReset_inputs (s : State) : (cntReset s).inputs = s.inputs := rfl
@[simp] theorem cntReset_env (s : State) : (cntReset s).env = s.env := rfl
@[simp] theorem cntReset_draws (s : State) : (cntReset s).draws = s.draws := rfl

/-! ### push -/

@[simp] theorem push_par (js : List Job) (s : State) : (push js s).par = s.par := rfl
@[simp] theorem push_port (js : List Job) (s : State) : (push js s).port = s.port := rfl
@[simp] theorem push_cnt (js : List Job) (s : State) : (push js s).cnt = s.cnt := rfl
@[simp] theorem push_sns (js : List Job) (s : State) : (push js s).sns = s.sns := rfl
@[simp] theorem push_lcd (js : List Job) (s : State) : (push js s).lcd = s.lcd := rfl
@[simp] theorem push_cfg (js : List Job) (s : State) : (push js s).cfg = s.cfg := rfl
@[simp] theorem push_set (js : List Job) (s : State) : (push js s).set = s.set := rfl
@[simp] theorem push_ac (js : List Job) (s : State) : (push js s).ac = s.ac := rfl
@[simp] theorem push_toflag (js : List Job) (s : State) : (push js s).toflag = s.toflag := rfl
@[simp] theorem push_phase (js : List Job) (s : State) : (push js s).phase = s.phase := rfl
@[simp] theorem push_work (js : List Job) (s : State) : (push js s).work = s.work := rfl
@[simp] theorem push_obs (js : List Job) (s : State) : (push js s).obs = s.obs := rfl
@[simp] theorem push_todo (js : List Job) (s : State) : (push js s).todo = js ++ s.todo := rfl
@[simp] theorem push_inputs (js : List Job) (s : State) : (push js s).inputs = s.inputs := rfl
@[simp] theorem push_env (js : List Job) (s : State) : (push js s).env = s.env := rfl
@[simp] theorem push_draws (js : List Job) (s : State) : (push js s).draws = s.draws := rfl

/-! ### load -/

@[simp] theorem load_par (p : Phase) (js : List Job) (s : State) : (load p js s).par = s.par := rfl
@[simp] theorem load_port (p : Phase) (js : List Job) (s : State) : (load p js s).port = s.port := rfl
@[simp] theorem load_cnt (p : Phase) (js : List Job) (s : State) : (load p js s).cnt = s.cnt := rfl
@[simp] theorem load_sns (p : Phase) (js : List Job) (s : State) : (load p js s).sns = s.sns := rfl
@[simp] theorem load_lcd (p : Phase) (js : List Job) (s : State) : (load p js s).lcd = s.lcd := rfl
@[simp] theorem load_cfg (p : Phase) (js : List Job) (s : State) : (load p js s).cfg = s.cfg := rfl
@[simp] theorem load_set (p : Phase) (js : List Job) (s : State) : (load p js s).set = s.set := rfl
@[simp] theorem load_ac (p : Phase) (js : List Job) (s : State) : (load p js s).ac = s.ac := rfl
@[simp] theorem load_toflag (p : Phase) (js : List Job) (s : State) : (load p js s).toflag = s.toflag := rfl
@[simp] theorem load_phase (p : Phase) (js : List Job) (s : State) : (load p js s).phase = p := rfl
@[simp] theorem load_work (p : Phase) (js : List Job) (s : State) : (load p js s).work = s.work := rfl
@[simp] theorem load_obs (p : Phase) (js : List Job) (s : State) : (load p js s).obs = s.obs := rfl
@[simp] theorem load_todo (p : Phase) (js : List Job) (s : State) : (load p js s).todo = js := rfl
@[simp] theorem load_inputs (p : Phase) (js : List Job) (s : State) : (load p js s).inputs = s.inputs := rfl
@[simp] theorem load_env (p : Phase) (js : List Job) (s : State) : (load p js s).env = s.env := rfl
@[simp] theorem load_draws (p : Phase) (js : List Job) (s : State) : (load p js s).draws = s.draws := rfl

/-! ### takeJob -/

@[simp] theorem takeJob_par (rest : List Job) (s : State) : (takeJob rest s).par = s.par := rfl
@[simp] theorem takeJob_port (rest : List Job) (s : State) : (takeJob rest s).port = s.port := rfl
@[simp] theorem takeJob_cnt (rest : List Job) (s : State) : (takeJob rest s).cnt = s.cnt := rfl
@[simp] theorem takeJob_sns (rest : List Job) (s : State) : (takeJob rest s).sns = s.sns := rfl
@[simp] theorem takeJob_lcd (rest : List Job) (s : State) : (takeJob rest s).lcd = s.lcd := rfl
@[simp] theorem takeJob_cfg (rest : List Job) (s : State) : (takeJob rest s).cfg = s.cfg := rfl
@[simp] theorem takeJob_set (rest : List Job) (s : State) : (takeJob rest s).set = s.set := rfl
@[simp] theorem takeJob_ac (rest : List Job) (s : State) : (takeJob rest s).ac = s.ac := rfl
@[simp] theorem takeJob_toflag (rest : List Job) (s : State) : (takeJob rest s).toflag = s.toflag := rfl
@[simp] theorem takeJob_phase (rest : List Job) (s : State) : (takeJob rest s).phase = s.phase.next := rfl
@[simp] theorem takeJob_work (rest : List Job) (s : State) : (takeJob rest s).work = s.work := rfl
@[simp] theorem takeJob_obs (rest : List Job) (s : State) : (takeJob rest s).obs = s.obs := rfl
@[simp] theorem takeJob_todo (rest : List Job) (s : State) : (takeJob rest s).todo = rest := rfl
@[simp] theorem takeJob_inputs (rest : List Job) (s : State) : (takeJob rest s).inputs = s.inputs := rfl
@[simp] theorem takeJob_env (rest : List Job) (s : State) : (takeJob rest s).env = s.env := rfl
@[simp] theorem takeJob_draws (rest : List Job) (s : State) : (takeJob rest s).draws = s.draws := rfl

/-! ### release -/

@[simp] theorem release_par (s : State) : (release s).par = s.par := rfl
@[simp] theorem release_port (s : State) : (release s).port = { s.port with opbusy := false } := rfl
@[simp] theorem release_cnt (s : State) : (release s).cnt = s.cnt := rfl
@[simp] theorem release_sns (s : State) : (release s).sns = s.sns := rfl
@[simp] theorem release_lcd (s : State) : (release s).lcd = s.lcd := rfl
@[simp] theorem release_cfg (s : State) : (release s).cfg = s.cfg := rfl
@[simp] theorem release_set (s : State) : (release s).set = s.set := rfl
@[simp] theorem release_ac (s : State) : (release s).ac = s.ac := rfl
@[simp] theorem release_toflag (s : State) : (release s).toflag = s.toflag := rfl
@[simp] theorem release_phase (s : State) : (release s).phase = .idle := rfl
@[simp] theorem release_work (s : State) : (release s).work = s.work := rfl
@[simp] theorem release_obs (s : State) : (release s).obs = s.obs := rfl
@[simp] theorem release_todo (s : State) : (release s).todo = s.todo := rfl
@[simp] theorem release_inputs (s : State) : (release s).inputs = s.inputs := rfl
@[simp] theorem release_env (s : State) : (release s).env = s.env := rfl
@[simp] theorem release_draws (s : State) : (release s).draws = s.draws := rfl

/-! ### accept -/

@[simp] theorem accept_par (w : Word) (s : State) : (accept w s).par = s.par := rfl
@[simp] theorem accept_port (w : Word) (s : State) : (accept w s).port = { s.port with cmd := w, opbusy := true } := rfl
@[simp] theorem accept_cnt (w : Word) (s : State) : (accept w s).cnt = s.cnt := rfl
@[simp] theorem accept_sns (w : Word) (s : State) : (accept w s).sns = s.sns := rfl
@[simp] theorem accept_lcd (w : Word) (s : State) : (accept w s).lcd = s.lcd := rfl
@[simp] theorem accept_cfg (w : Word) (s : State) : (accept w s).cfg = s.cfg := rfl
@[simp] theorem accept_set (w : Word) (s : State) : (accept w s).set = s.set := rfl
@[simp] theorem accept_ac (w : Word) (s : State) : (accept w s).ac = s.ac := rfl
@[simp] theorem accept_toflag (w : Word) (s : State) : (accept w s).toflag = s.toflag := rfl
@[simp] theorem accept_phase (w : Word) (s : State) : (accept w s).phase = s.phase := rfl
@[simp] theorem accept_work (w : Word) (s : State) : (accept w s).work = s.work := rfl
@[simp] theorem accept_obs (w : Word) (s : State) : (accept w s).obs = s.obs := rfl
@[simp] theorem accept_todo (w : Word) (s : State) : (accept w s).todo = s.todo := rfl
@[simp] theorem accept_inputs (w : Word) (s : State) : (accept w s).inputs = s.inputs := rfl
@[simp] theorem accept_env (w : Word) (s : State) : (accept w s).env = s.env := rfl
@[simp] theorem accept_draws (w : Word) (s : State) : (accept w s).draws = s.draws := rfl

/-! ### writeArg -/

@[simp] theorem writeArg_par (v : Word) (s : State) : (writeArg v s).par = s.par := rfl
@[simp] theorem writeArg_port (v : Word) (s : State) : (writeArg v s).port = { s.port with arg := v } := rfl
@[simp] theorem writeArg_cnt (v : Word) (s : State) : (writeArg v s).cnt = s.cnt := rfl
@[simp] theorem writeArg_sns (v : Word) (s : State) : (writeArg v s).sns = s.sns := rfl
@[simp] theorem writeArg_lcd (v : Word) (s : State) : (writeArg v s).lcd = s.lcd := rfl
@[simp] theorem writeArg_cfg (v : Word) (s : State) : (writeArg v s).cfg = s.cfg := rfl
@[simp] theorem writeArg_set (v : Word) (s : State) : (writeArg v s).set = s.set := rfl
@[simp] theorem writeArg_ac (v : Word) (s : State) : (writeArg v s).ac = s.ac := rfl
@[simp] theorem writeArg_toflag (v : Word) (s : State) : (writeArg v s).toflag = s.toflag := rfl
@[simp] theorem writeArg_phase (v : Word) (s : State) : (writeArg v s).phase = s.phase := rfl
@[simp] theorem writeArg_work (v : Word) (s : State) : (writeArg v s).work = s.work := rfl
@[simp] theorem writeArg_obs (v : Word) (s : State) : (writeArg v s).obs = s.obs := rfl
@[simp] theorem writeArg_todo (v : Word) (s : State) : (writeArg v s).todo = s.todo := rfl
@[simp] theorem writeArg_inputs (v : Word) (s : State) : (writeArg v s).inputs = s.inputs := rfl
@[simp] theorem writeArg_env (v : Word) (s : State) : (writeArg v s).env = s.env := rfl
@[simp] theorem writeArg_draws (v : Word) (s : State) : (writeArg v s).draws = s.draws := rfl

/-! ### writeWbuf -/

@[simp] theorem writeWbuf_par (i : Nat) (v : Byte) (s : State) : (writeWbuf i v s).par = s.par := rfl
@[simp] theorem writeWbuf_port (i : Nat) (v : Byte) (s : State) : (writeWbuf i v s).port = { s.port with wbuf := s.port.wbuf.write i v } := rfl
@[simp] theorem writeWbuf_cnt (i : Nat) (v : Byte) (s : State) : (writeWbuf i v s).cnt = s.cnt := rfl
@[simp] theorem writeWbuf_sns (i : Nat) (v : Byte) (s : State) : (writeWbuf i v s).sns = s.sns := rfl
@[simp] theorem writeWbuf_lcd (i : Nat) (v : Byte) (s : State) : (writeWbuf i v s).lcd = s.lcd := rfl
@[simp] theorem writeWbuf_cfg (i : Nat) (v : Byte) (s : State) : (writeWbuf i v s).cfg = s.cfg := rfl
@[simp] theorem writeWbuf_set (i : Nat) (v : Byte) (s : State) : (writeWbuf i v s).set = s.set := rfl
@[simp] theorem writeWbuf_ac (i : Nat) (v : Byte) (s : State) : (writeWbuf i v s).ac = s.ac := rfl
@[simp] theorem writeWbuf_toflag (i : Nat) (v : Byte) (s : State) : (writeWbuf i v s).toflag = s.toflag := rfl
@[simp] theorem writeWbuf_phase (i : Nat) (v : Byte) (s : State) : (writeWbuf i v s).phase = s.phase := rfl
@[simp] theorem writeWbuf_work (i : Nat) (v : Byte) (s : State) : (writeWbuf i v s).work = s.work := rfl
@[simp] theorem writeWbuf_obs (i : Nat) (v : Byte) (s : State) : (writeWbuf i v s).obs = s.obs := rfl
@[simp] theorem writeWbuf_todo (i : Nat) (v : Byte) (s : State) : (writeWbuf i v s).todo = s.todo := rfl
@[simp] theorem writeWbuf_inputs (i : Nat) (v : Byte) (s : State) : (writeWbuf i v s).inputs = s.inputs := rfl
@[simp] theorem writeWbuf_env (i : Nat) (v : Byte) (s : State) : (writeWbuf i v s).env = s.env := rfl
@[simp] theorem writeWbuf_draws (i : Nat) (v : Byte) (s : State) : (writeWbuf i v s).draws = s.draws := rfl

/-! ### clearToflag -/

@[simp] theorem clearToflag_par (s : State) : (clearToflag s).par = s.par := rfl
@[simp] theorem clearToflag_port (s : State) : (clearToflag s).port = s.port := rfl
@[simp] theorem clearToflag_cnt (s : State) : (clearToflag s).cnt = s.cnt := rfl
@[simp] theorem clearToflag_sns (s : State) : (clearToflag s).sns = s.sns := rfl
@[simp] theorem clearToflag_lcd (s : State) : (clearToflag s).lcd = s.lcd := rfl
@[simp] theorem clearToflag_cfg (s : State) : (clearToflag s).cfg = s.cfg := rfl
@[simp] theorem clearToflag_set (s : State) : (clearToflag s).set = s.set := rfl
@[simp] theorem clearToflag_ac (s : State) : (clearToflag s).ac = s.ac := rfl
@[simp] theorem clearToflag_toflag (s : State) : (clearToflag s).toflag = false := rfl
@[simp] theorem clearToflag_phase (s : State) : (clearToflag s).phase = s.phase := rfl
@[simp] theorem clearToflag_work (s : State) : (clearToflag s).work = s.work := rfl
@[simp] theorem clearToflag_obs (s : State) : (clearToflag s).obs = s.obs := rfl
@[simp] theorem clearToflag_todo (s : State) : (clearToflag s).todo = s.todo := rfl
@[simp] theorem clearToflag_inputs (s : State) : (clearToflag s).inputs = s.inputs := rfl
@[simp] theorem clearToflag_env (s : State) : (clearToflag s).env = s.env := rfl
@[simp] theorem clearToflag_draws (s : State) : (clearToflag s).draws = s.draws := rfl

/-! ### conclude -/

@[simp] theorem conclude_par (st : Status) (v : Word) (s : State) : (conclude st v s).par = s.par := rfl
@[simp] theorem conclude_port (st : Status) (v : Word) (s : State) : (conclude st v s).port = { s.port with status := st.code, val := v, opbusy := false } := rfl
@[simp] theorem conclude_cnt (st : Status) (v : Word) (s : State) : (conclude st v s).cnt = s.cnt := rfl
@[simp] theorem conclude_sns (st : Status) (v : Word) (s : State) : (conclude st v s).sns = s.sns := rfl
@[simp] theorem conclude_lcd (st : Status) (v : Word) (s : State) : (conclude st v s).lcd = s.lcd := rfl
@[simp] theorem conclude_cfg (st : Status) (v : Word) (s : State) : (conclude st v s).cfg = s.cfg := rfl
@[simp] theorem conclude_set (st : Status) (v : Word) (s : State) : (conclude st v s).set = s.set := rfl
@[simp] theorem conclude_ac (st : Status) (v : Word) (s : State) : (conclude st v s).ac = s.ac := rfl
@[simp] theorem conclude_toflag (st : Status) (v : Word) (s : State) : (conclude st v s).toflag = s.toflag := rfl
@[simp] theorem conclude_phase (st : Status) (v : Word) (s : State) : (conclude st v s).phase = .idle := rfl
@[simp] theorem conclude_work (st : Status) (v : Word) (s : State) : (conclude st v s).work = s.work := rfl
@[simp] theorem conclude_obs (st : Status) (v : Word) (s : State) : (conclude st v s).obs = { s.obs with results := s.obs.results ++ [⟨zextByte st.code, v, s.port.rbuf⟩] } := rfl
@[simp] theorem conclude_todo (st : Status) (v : Word) (s : State) : (conclude st v s).todo = [] := rfl
@[simp] theorem conclude_inputs (st : Status) (v : Word) (s : State) : (conclude st v s).inputs = s.inputs := rfl
@[simp] theorem conclude_env (st : Status) (v : Word) (s : State) : (conclude st v s).env = s.env := rfl
@[simp] theorem conclude_draws (st : Status) (v : Word) (s : State) : (conclude st v s).draws = s.draws := rfl

/-! ### raise -/

@[simp] theorem raise_par (st : Status) (s : State) : (raise st s).par = s.par := rfl
@[simp] theorem raise_port (st : Status) (s : State) : (raise st s).port = { s.port with status := st.code, val := Config.freeWord s.draws, opbusy := false } := rfl
@[simp] theorem raise_cnt (st : Status) (s : State) : (raise st s).cnt = s.cnt := rfl
@[simp] theorem raise_sns (st : Status) (s : State) : (raise st s).sns = s.sns := rfl
@[simp] theorem raise_lcd (st : Status) (s : State) : (raise st s).lcd = s.lcd := rfl
@[simp] theorem raise_cfg (st : Status) (s : State) : (raise st s).cfg = s.cfg := rfl
@[simp] theorem raise_set (st : Status) (s : State) : (raise st s).set = s.set := rfl
@[simp] theorem raise_ac (st : Status) (s : State) : (raise st s).ac = s.ac := rfl
@[simp] theorem raise_toflag (st : Status) (s : State) : (raise st s).toflag = s.toflag := rfl
@[simp] theorem raise_phase (st : Status) (s : State) : (raise st s).phase = .idle := rfl
@[simp] theorem raise_work (st : Status) (s : State) : (raise st s).work = s.work := rfl
@[simp] theorem raise_obs (st : Status) (s : State) : (raise st s).obs = { s.obs with results := s.obs.results ++ [⟨zextByte st.code, Config.freeWord s.draws, s.port.rbuf⟩] } := rfl
@[simp] theorem raise_todo (st : Status) (s : State) : (raise st s).todo = [] := rfl
@[simp] theorem raise_inputs (st : Status) (s : State) : (raise st s).inputs = s.inputs := rfl
@[simp] theorem raise_env (st : Status) (s : State) : (raise st s).env = s.env := rfl
@[simp] theorem raise_draws (st : Status) (s : State) : (raise st s).draws = s.draws + 1 := rfl

/-! ### forgetSensor -/

@[simp] theorem forgetSensor_par (s : State) : (forgetSensor s).par = s.par := rfl
@[simp] theorem forgetSensor_port (s : State) : (forgetSensor s).port = s.port := rfl
@[simp] theorem forgetSensor_cnt (s : State) : (forgetSensor s).cnt = s.cnt := rfl
@[simp] theorem forgetSensor_sns (s : State) : (forgetSensor s).sns = s.sns := rfl
@[simp] theorem forgetSensor_lcd (s : State) : (forgetSensor s).lcd = s.lcd := rfl
@[simp] theorem forgetSensor_cfg (s : State) : (forgetSensor s).cfg = s.cfg := rfl
@[simp] theorem forgetSensor_set (s : State) : (forgetSensor s).set = s.set := rfl
@[simp] theorem forgetSensor_ac (s : State) : (forgetSensor s).ac = s.ac := rfl
@[simp] theorem forgetSensor_toflag (s : State) : (forgetSensor s).toflag = s.toflag := rfl
@[simp] theorem forgetSensor_phase (s : State) : (forgetSensor s).phase = s.phase := rfl
@[simp] theorem forgetSensor_obs (s : State) : (forgetSensor s).obs = s.obs := rfl
@[simp] theorem forgetSensor_todo (s : State) : (forgetSensor s).todo = s.todo := rfl
@[simp] theorem forgetSensor_inputs (s : State) : (forgetSensor s).inputs = s.inputs := rfl
@[simp] theorem forgetSensor_env (s : State) : (forgetSensor s).env = s.env := rfl
@[simp] theorem forgetSensor_draws (s : State) : (forgetSensor s).draws = s.draws + 2 + 2 * s.par.frameBits + s.par.frameBits / 8 := rfl

/-! ### forgetToflag -/

@[simp] theorem forgetToflag_par (s : State) : (forgetToflag s).par = s.par := rfl
@[simp] theorem forgetToflag_port (s : State) : (forgetToflag s).port = s.port := rfl
@[simp] theorem forgetToflag_cnt (s : State) : (forgetToflag s).cnt = s.cnt := rfl
@[simp] theorem forgetToflag_sns (s : State) : (forgetToflag s).sns = s.sns := rfl
@[simp] theorem forgetToflag_lcd (s : State) : (forgetToflag s).lcd = s.lcd := rfl
@[simp] theorem forgetToflag_cfg (s : State) : (forgetToflag s).cfg = s.cfg := rfl
@[simp] theorem forgetToflag_set (s : State) : (forgetToflag s).set = s.set := rfl
@[simp] theorem forgetToflag_ac (s : State) : (forgetToflag s).ac = s.ac := rfl
@[simp] theorem forgetToflag_phase (s : State) : (forgetToflag s).phase = s.phase := rfl
@[simp] theorem forgetToflag_work (s : State) : (forgetToflag s).work = s.work := rfl
@[simp] theorem forgetToflag_obs (s : State) : (forgetToflag s).obs = s.obs := rfl
@[simp] theorem forgetToflag_todo (s : State) : (forgetToflag s).todo = s.todo := rfl
@[simp] theorem forgetToflag_inputs (s : State) : (forgetToflag s).inputs = s.inputs := rfl
@[simp] theorem forgetToflag_env (s : State) : (forgetToflag s).env = s.env := rfl
@[simp] theorem forgetToflag_draws (s : State) : (forgetToflag s).draws = s.draws + 1 := rfl

/-! ### forgetLcd -/

@[simp] theorem forgetLcd_par (s : State) : (forgetLcd s).par = s.par := rfl
@[simp] theorem forgetLcd_port (s : State) : (forgetLcd s).port = s.port := rfl
@[simp] theorem forgetLcd_cnt (s : State) : (forgetLcd s).cnt = s.cnt := rfl
@[simp] theorem forgetLcd_sns (s : State) : (forgetLcd s).sns = s.sns := rfl
@[simp] theorem forgetLcd_lcd (s : State) : (forgetLcd s).lcd = s.lcd := rfl
@[simp] theorem forgetLcd_cfg (s : State) : (forgetLcd s).cfg = s.cfg := rfl
@[simp] theorem forgetLcd_set (s : State) : (forgetLcd s).set = s.set := rfl
@[simp] theorem forgetLcd_ac (s : State) : (forgetLcd s).ac = s.ac := rfl
@[simp] theorem forgetLcd_phase (s : State) : (forgetLcd s).phase = s.phase := rfl
@[simp] theorem forgetLcd_obs (s : State) : (forgetLcd s).obs = s.obs := rfl
@[simp] theorem forgetLcd_todo (s : State) : (forgetLcd s).todo = s.todo := rfl
@[simp] theorem forgetLcd_inputs (s : State) : (forgetLcd s).inputs = s.inputs := rfl
@[simp] theorem forgetLcd_env (s : State) : (forgetLcd s).env = s.env := rfl
@[simp] theorem forgetLcd_draws (s : State) : (forgetLcd s).draws = s.draws + 4 := rfl

/-! ### abort -/

@[simp] theorem abort_par (st : Status) (s : State) : (abort st s).par = s.par := rfl
@[simp] theorem abort_port (st : Status) (s : State) : (abort st s).port = s.port := rfl
@[simp] theorem abort_cnt (st : Status) (s : State) : (abort st s).cnt = s.cnt := rfl
@[simp] theorem abort_sns (st : Status) (s : State) : (abort st s).sns = s.sns := rfl
@[simp] theorem abort_lcd (st : Status) (s : State) : (abort st s).lcd = s.lcd := rfl
@[simp] theorem abort_cfg (st : Status) (s : State) : (abort st s).cfg = s.cfg := rfl
@[simp] theorem abort_set (st : Status) (s : State) : (abort st s).set = s.set := rfl
@[simp] theorem abort_ac (st : Status) (s : State) : (abort st s).ac = s.ac := rfl
@[simp] theorem abort_toflag (st : Status) (s : State) : (abort st s).toflag = s.toflag := rfl
@[simp] theorem abort_phase (st : Status) (s : State) : (abort st s).phase = s.phase := rfl
@[simp] theorem abort_work (st : Status) (s : State) : (abort st s).work = s.work := rfl
@[simp] theorem abort_obs (st : Status) (s : State) : (abort st s).obs = s.obs := rfl
@[simp] theorem abort_todo (st : Status) (s : State) : (abort st s).todo = [.raise st] := rfl
@[simp] theorem abort_inputs (st : Status) (s : State) : (abort st s).inputs = s.inputs := rfl
@[simp] theorem abort_env (st : Status) (s : State) : (abort st s).env = s.env := rfl
@[simp] theorem abort_draws (st : Status) (s : State) : (abort st s).draws = s.draws := rfl

/-! ### rejectWord -/

@[simp] theorem rejectWord_par (w : Word) (s : State) : (rejectWord w s).par = s.par := rfl
@[simp] theorem rejectWord_port (w : Word) (s : State) : (rejectWord w s).port = { s.port with cmd := w, opbusy := true } := rfl
@[simp] theorem rejectWord_cnt (w : Word) (s : State) : (rejectWord w s).cnt = s.cnt := rfl
@[simp] theorem rejectWord_sns (w : Word) (s : State) : (rejectWord w s).sns = s.sns := rfl
@[simp] theorem rejectWord_lcd (w : Word) (s : State) : (rejectWord w s).lcd = s.lcd := rfl
@[simp] theorem rejectWord_cfg (w : Word) (s : State) : (rejectWord w s).cfg = s.cfg := rfl
@[simp] theorem rejectWord_set (w : Word) (s : State) : (rejectWord w s).set = s.set := rfl
@[simp] theorem rejectWord_ac (w : Word) (s : State) : (rejectWord w s).ac = s.ac := rfl
@[simp] theorem rejectWord_toflag (w : Word) (s : State) : (rejectWord w s).toflag = s.toflag := rfl
@[simp] theorem rejectWord_phase (w : Word) (s : State) : (rejectWord w s).phase = .lcdRun 0 := rfl
@[simp] theorem rejectWord_work (w : Word) (s : State) : (rejectWord w s).work = s.work := rfl
@[simp] theorem rejectWord_obs (w : Word) (s : State) : (rejectWord w s).obs = s.obs := rfl
@[simp] theorem rejectWord_todo (w : Word) (s : State) : (rejectWord w s).todo = [.raise .illegalOp] := rfl
@[simp] theorem rejectWord_inputs (w : Word) (s : State) : (rejectWord w s).inputs = s.inputs := rfl
@[simp] theorem rejectWord_env (w : Word) (s : State) : (rejectWord w s).env = s.env := rfl
@[simp] theorem rejectWord_draws (w : Word) (s : State) : (rejectWord w s).draws = s.draws := rfl

@[simp] theorem forgetSensor_work_polls (s : State) : (forgetSensor s).work.polls = s.work.polls := rfl
@[simp] theorem forgetSensor_work_nXfer (s : State) : (forgetSensor s).work.nXfer = s.work.nXfer := rfl
@[simp] theorem forgetSensor_work_rx (s : State) : (forgetSensor s).work.rx = s.work.rx := rfl
@[simp] theorem forgetLcd_work_t0 (s : State) : (forgetLcd s).work.t0 = s.work.t0 := rfl
@[simp] theorem forgetLcd_work_i (s : State) : (forgetLcd s).work.i = s.work.i := rfl
@[simp] theorem forgetLcd_work_low (s : State) : (forgetLcd s).work.low = s.work.low := rfl
@[simp] theorem forgetLcd_work_high (s : State) : (forgetLcd s).work.high = s.work.high := rfl
@[simp] theorem forgetLcd_work_fb (s : State) : (forgetLcd s).work.fb = s.work.fb := rfl

/-- The result an operation leaves is what the host reads from the port then (R39, R50). -/
theorem conclude_result (st : Status) (v : Word) (s : State) :
    (conclude st v s).obs.results = s.obs.results ++ [(conclude st v s).port.result] := rfl

@[simp] theorem cntRead_value (s : State) : (cntRead s).1 = s.cnt := rfl
@[simp] theorem cntRead_state (s : State) : (cntRead s).2 = emit (.tread s.cnt) s := rfl
@[simp] theorem freeWord_value (s : State) : (freeWord s).1 = Config.freeWord s.draws := rfl

end Sys2Proof.Machine
end

