-- ==== Sys2Proof/Laws/Ops.lean ====
section
/-! SUPPORT. What each shared operation can do, said once: the draws, the timer, a sample, the fetch and the step. -/

namespace Sys2Proof.Machine

/-! ### Draws and the timer -/

/-- A draw of the timer changes nothing but the script it comes from and the count of free values. -/
theorem drawTicks_cases (s : State) :
    (∃ k rest, s.env.ticks = k :: rest ∧ drawTicks s = (k, { s with env.ticks := rest })) ∨
      (s.env.ticks = [] ∧ drawTicks s = (Config.freeTicks s.draws, { s with draws := s.draws + 1 })) := by
  unfold drawTicks
  cases h : s.env.ticks with
  | nil => exact .inr ⟨rfl, rfl⟩
  | cons k rest => exact .inl ⟨k, rest, rfl, rfl⟩

/-- A draw of the sensor changes nothing but the script it comes from and the count of free values. -/
theorem drawLevel_cases (s : State) :
    (∃ v rest, s.env.line = v :: rest ∧ drawLevel s = (v, { s with env.line := rest })) ∨
      (s.env.line = [] ∧ drawLevel s = (Config.freeLevel s.draws, { s with draws := s.draws + 1 })) := by
  unfold drawLevel
  cases h : s.env.line with
  | nil => exact .inr ⟨rfl, rfl⟩
  | cons v rest => exact .inl ⟨v, rest, rfl, rfl⟩

/-- A draw of the LCD controller changes nothing but the script it comes from and the count of free values. -/
theorem drawPins_cases (s : State) :
    (∃ v rest, s.env.pins = v :: rest ∧ drawPins s = (v, { s with env.pins := rest })) ∨
      (s.env.pins = [] ∧ drawPins s = (Config.freePins s.draws, { s with draws := s.draws + 1 })) := by
  unfold drawPins
  cases h : s.env.pins with
  | nil => exact .inr ⟨rfl, rfl⟩
  | cons v rest => exact .inl ⟨v, rest, rfl, rfl⟩

theorem cntSpan_pos (par : Params) : 0 < cntSpan par := Nat.two_pow_pos _

theorem cntSpan_dvd (par : Params) : cntSpan par ∣ 2 ^ 32 := Nat.pow_dvd_pow 2 (Nat.min_le_right ..)

theorem cntSpan_le (par : Params) : cntSpan par ≤ 2 ^ 32 := Nat.le_of_dvd (by decide) (cntSpan_dvd par)

/-- With the default width CNT has every value of a u32, and no count is cut (R22). -/
theorem wrapCnt_default {par : Params} (h : par.cntWidth = 32) (v : Word) : wrapCnt par v = v := by
  simp [wrapCnt, cntSpan, h, Nat.mod_eq_of_lt v.isLt]

@[simp] theorem wrapCnt_toNat (par : Params) (v : Word) : (wrapCnt par v).toNat = v.toNat % cntSpan par := by
  rw [wrapCnt, BitVec.toNat_ofNat]
  exact Nat.mod_eq_of_lt (Nat.lt_of_lt_of_le (Nat.mod_lt _ (cntSpan_pos par)) (cntSpan_le par))

/-- A sum modulo 2^32 and then modulo CNT's span is the sum modulo the span. -/
theorem wrapCnt_add_toNat (par : Params) (v w : Word) :
    (wrapCnt par (v + w)).toNat = (v.toNat + w.toNat) % cntSpan par := by
  rw [wrapCnt_toNat, BitVec.toNat_add, Nat.mod_mod_of_dvd _ (cntSpan_dvd par)]

/-- A count that CNT can hold is not cut. -/
theorem wrapCnt_of_lt {par : Params} {v : Word} (h : v.toNat < cntSpan par) : wrapCnt par v = v :=
  BitVec.eq_of_toNat_eq (by rw [wrapCnt_toNat, Nat.mod_eq_of_lt h])

/-- Ticks counted one after another are ticks counted together. -/
theorem wrapCnt_wrapCnt_add (par : Params) (v w : Word) : wrapCnt par (wrapCnt par v + w) = wrapCnt par (v + w) :=
  BitVec.eq_of_toNat_eq (by rw [wrapCnt_add_toNat, wrapCnt_add_toNat, wrapCnt_toNat, Nat.mod_add_mod])

/-- `ticks k` is the timer's step `k` times (R22). -/
theorem ticks_succ (k : Nat) (s : State) : ticks (k + 1) s = tick (ticks k s) := by
  simp [ticks, tick, wrapCnt_wrapCnt_add, BitVec.ofNat_add, BitVec.add_assoc]

/-- No tick leaves a count that CNT can hold. -/
theorem ticks_zero {s : State} (h : s.cnt.toNat < cntSpan s.par) : ticks 0 s = s := by
  simp [ticks, wrapCnt_of_lt h]

/-- The timer's move adds some number of ticks to CNT and changes nothing else of the block (R22, R23). -/
theorem advanceTimer_spec (s : State) :
    ∃ k env d, advanceTimer s = { s with cnt := wrapCnt s.par (s.cnt + BitVec.ofNat 32 k), env := env, draws := d } ∧
      env.line = s.env.line ∧ env.pins = s.env.pins := by
  unfold advanceTimer
  rcases drawTicks_cases s with ⟨k, rest, -, h⟩ | ⟨-, h⟩ <;> rw [h]
  · exact ⟨k, { s.env with ticks := rest }, s.draws, rfl, rfl, rfl⟩
  · exact ⟨Config.freeTicks s.draws, s.env, s.draws + 1, rfl, rfl, rfl⟩

/-- With a scripted draw the timer's move is that many ticks. -/
theorem advanceTimer_cons {s : State} {k : Nat} {rest : List Nat} (h : s.env.ticks = k :: rest) :
    advanceTimer s = { s with cnt := wrapCnt s.par (s.cnt + BitVec.ofNat 32 k), env.ticks := rest } := by
  simp only [advanceTimer, drawTicks, h, ticks]

@[simp] theorem advanceTimer_inputs (s : State) : (advanceTimer s).inputs = s.inputs := by
  obtain ⟨k, env, d, h, -⟩ := advanceTimer_spec s; rw [h]

@[simp] theorem advanceTimer_port (s : State) : (advanceTimer s).port = s.port := by
  obtain ⟨k, env, d, h, -⟩ := advanceTimer_spec s; rw [h]

@[simp] theorem advanceTimer_todo (s : State) : (advanceTimer s).todo = s.todo := by
  obtain ⟨k, env, d, h, -⟩ := advanceTimer_spec s; rw [h]

@[simp] theorem advanceTimer_phase (s : State) : (advanceTimer s).phase = s.phase := by
  obtain ⟨k, env, d, h, -⟩ := advanceTimer_spec s; rw [h]

@[simp] theorem advanceTimer_par (s : State) : (advanceTimer s).par = s.par := by
  obtain ⟨k, env, d, h, -⟩ := advanceTimer_spec s; rw [h]

@[simp] theorem advanceTimer_cfg (s : State) : (advanceTimer s).cfg = s.cfg := by
  obtain ⟨k, env, d, h, -⟩ := advanceTimer_spec s; rw [h]

@[simp] theorem advanceTimer_sns (s : State) : (advanceTimer s).sns = s.sns := by
  obtain ⟨k, env, d, h, -⟩ := advanceTimer_spec s; rw [h]

@[simp] theorem advanceTimer_lcd (s : State) : (advanceTimer s).lcd = s.lcd := by
  obtain ⟨k, env, d, h, -⟩ := advanceTimer_spec s; rw [h]

@[simp] theorem advanceTimer_obs (s : State) : (advanceTimer s).obs = s.obs := by
  obtain ⟨k, env, d, h, -⟩ := advanceTimer_spec s; rw [h]

@[simp] theorem advanceTimer_work (s : State) : (advanceTimer s).work = s.work := by
  obtain ⟨k, env, d, h, -⟩ := advanceTimer_spec s; rw [h]

@[simp] theorem advanceTimer_set (s : State) : (advanceTimer s).set = s.set := by
  obtain ⟨k, env, d, h, -⟩ := advanceTimer_spec s; rw [h]

@[simp] theorem advanceTimer_ac (s : State) : (advanceTimer s).ac = s.ac := by
  obtain ⟨k, env, d, h, -⟩ := advanceTimer_spec s; rw [h]

@[simp] theorem advanceTimer_toflag (s : State) : (advanceTimer s).toflag = s.toflag := by
  obtain ⟨k, env, d, h, -⟩ := advanceTimer_spec s; rw [h]

/-! ### Samples -/

/-- SnsRead() appends its event with the value it answers, and changes nothing else but the script and the count of free
values; while the block pulls the line low it answers 0 (R25). -/
theorem snsRead_spec (s : State) :
    ∃ v env d, snsRead s = (v, emit (.snsSample v) { s with env := env, draws := d }) ∧
      (s.sns.mode = .outOd → s.sns.drv = false → v = false) := by
  unfold snsRead
  split
  · exact ⟨false, s.env, s.draws, rfl, fun _ _ => rfl⟩
  · rename_i hp
    rcases drawLevel_cases s with ⟨v, rest, -, h⟩ | ⟨-, h⟩ <;> rw [h]
    · exact ⟨v, { s.env with line := rest }, s.draws, rfl, fun h1 h2 => absurd ⟨h1, h2⟩ hp⟩
    · exact ⟨_, s.env, s.draws + 1, rfl, fun h1 h2 => absurd ⟨h1, h2⟩ hp⟩

/-! ### Ending an operation -/

theorem forgetSensor_spec (s : State) :
    ∃ w d, forgetSensor s = { s with work := w, draws := d } ∧
      w.polls = s.work.polls ∧ w.nXfer = s.work.nXfer ∧ w.rx = s.work.rx ∧ w.i ≤ s.par.frameBits := by
  exact ⟨_, _, rfl, rfl, rfl, rfl, Nat.le_of_lt_succ (Nat.mod_lt _ (Nat.succ_pos _))⟩

theorem forgetLcd_spec (s : State) :
    ∃ w f d, forgetLcd s = { s with work := w, toflag := f, draws := d } ∧ w.t0 = s.work.t0 ∧ w.i = s.work.i ∧ w.low = s.work.low ∧
      w.high = s.work.high ∧ w.fb = s.work.fb ∧ w.polls ≤ s.par.maxPolls := by
  exact ⟨_, _, _, rfl, rfl, rfl, rfl, rfl, rfl, Nat.le_of_lt_succ (Nat.mod_lt _ (Nat.succ_pos _))⟩

/-- An operation that ends with an error forgets working registers and TOFLAG at most. -/
theorem forgetAfter_spec (st : Status) (s : State) :
    ∃ w f d, forgetAfter st s = { s with work := w, toflag := f, draws := d } := by
  cases st <;> exact ⟨_, _, _, rfl⟩

/-- The step of a raise: STATUS is its code, VAL is some value, the operation is over, and no event is appended (R161). -/
theorem runRaise_spec (st : Status) (s : State) :
    ∃ v w f d, runRaise st s = conclude st v { s with work := w, toflag := f, draws := d } := by
  obtain ⟨w, f, d, h⟩ := forgetAfter_spec st s
  exact ⟨Config.freeWord d, w, f, d + 1, by rw [runRaise, h]; rfl⟩

theorem Status.code_le (st : Status) : st.code.toNat ≤ 9 := by cases st <;> decide

/-! ### The fetch and the step -/

/-- Every job but the two that access a buffer is run. -/
theorem jobStep_next {s : State} {j : Job} (js : List Job) (h : outsideBuffer s j = false) :
    jobStep j js s = .next (runJob j (takeJob js s)) := by simp [jobStep, h]

/-- A job that is taken is run, and its byte is inside its buffer. -/
theorem jobStep_cases {s t : State} {j : Job} {js : List Job} (h : jobStep j js s = .next t) :
    outsideBuffer s j = false ∧ t = runJob j (takeJob js s) := by
  unfold jobStep at h
  split at h
  · cases h
  · exact ⟨eq_false_of_ne_true ‹_›, (Host.Outcome.next.inj h).symm⟩

/-- A running operation's next job, when it is no transfer, is taken by `jobStep`. -/
theorem fetchJob_cons {s : State} {j : Job} {js : List Job} (hb : s.port.opbusy = true) (ht : s.todo = j :: js)
    (hj : ∀ w, j ≠ .transfer w) : fetchJob s = .took (jobStep j js s) := by
  unfold fetchJob
  simp only [hb, ht, if_true]

/-- A running operation's next transfer is dispatched to its instruction. -/
theorem fetchJob_transfer {s : State} {w : BusWord} {i : Instr} {js : List Job} (hb : s.port.opbusy = true)
    (ht : s.todo = .transfer w :: js) (hw : decodeBus w = .ok i) : fetchJob s = .instr i (takeJob js s) := by
  unfold fetchJob
  simp only [hb, ht, if_true, hw]

/-- What a step without a fault or refusal does, said once: with `a` the state after the timer's move, the controller
stays idle, releases a finished operation, runs a job (inside the buffers) or a transfer; or the host starts an operation,
writes an illegal word, ARG or a byte of WBUF; or RST is asserted. -/
theorem step_cases {s t : State} (h : step s = .next t) :
    (∃ a, (a = advanceTimer s ∨ a = { advanceTimer s with inputs := s.inputs.tail }) ∧
      ((a.port.opbusy = false ∧ t = a) ∨
       (a.port.opbusy = true ∧ a.todo = [] ∧ t = release a) ∨
       (∃ j js, a.port.opbusy = true ∧ a.todo = j :: js ∧ (∀ w, j ≠ .transfer w) ∧
          outsideBuffer a j = false ∧ t = runJob j (takeJob js a)) ∨
       (∃ w i js, a.port.opbusy = true ∧ a.todo = .transfer w :: js ∧ decodeBus w = .ok i ∧
          exec i (takeJob js a) = .next t))) ∨
    (∃ a, a = { advanceTimer s with inputs := s.inputs.tail } ∧
      ((∃ w i, a.port.opbusy = false ∧ decodeCmd w = .ok i ∧ exec i (accept w a) = .next t) ∨
       (∃ w r, a.port.opbusy = false ∧ decodeCmd w = .error r ∧ t = rejectWord w a) ∨
       (∃ v, a.port.opbusy = false ∧ t = writeArg v a) ∨
       (∃ i v, a.port.opbusy = false ∧ i < a.par.bufSize ∧ t = writeWbuf i v a) ∨
       t = applyReset a)) := by
  have job : ∀ a, (match fetchJob a with | .instr i u => exec i u | .took o => o) = .next t →
      ((a.port.opbusy = false ∧ t = a) ∨ (a.port.opbusy = true ∧ a.todo = [] ∧ t = release a) ∨
       (∃ j js, a.port.opbusy = true ∧ a.todo = j :: js ∧ (∀ w, j ≠ .transfer w) ∧
          outsideBuffer a j = false ∧ t = runJob j (takeJob js a)) ∨
       (∃ w i js, a.port.opbusy = true ∧ a.todo = .transfer w :: js ∧ decodeBus w = .ok i ∧
          exec i (takeJob js a) = .next t)) := by
    intro a ha
    cases hb : a.port.opbusy with
    | false =>
      simp only [fetchJob, hb] at ha
      exact .inl ⟨rfl, by simpa using ha.symm⟩
    | true =>
      cases ht : a.todo with
      | nil =>
        simp only [fetchJob, hb, ht, if_true] at ha
        exact .inr (.inl ⟨rfl, rfl, by simpa using ha.symm⟩)
      | cons j js =>
        by_cases hj : ∃ w, j = .transfer w
        · obtain ⟨w, rfl⟩ := hj
          cases hw : decodeBus w with
          | ok i =>
            rw [fetchJob_transfer hb ht hw] at ha
            exact .inr (.inr (.inr ⟨w, i, js, rfl, rfl, hw, ha⟩))
          | error r =>
            simp only [fetchJob, hb, ht, if_true, hw] at ha
            cases ha
        · have hj' : ∀ w, j ≠ .transfer w := fun w e => hj ⟨w, e⟩
          rw [fetchJob_cons hb ht hj'] at ha
          exact .inr (.inr (.inl ⟨j, js, rfl, rfl, hj', jobStep_cases ha⟩))
  unfold step fetch fetchInput at h
  simp only [advanceTimer_inputs] at h
  cases hi : s.inputs with
  | nil =>
    rw [hi] at h
    exact .inl ⟨advanceTimer s, .inl rfl, job _ h⟩
  | cons x rest =>
    rw [hi] at h
    simp only [List.tail_cons]
    cases x with
    | run => exact .inl ⟨_, .inr rfl, job _ h⟩
    | rst => exact .inr ⟨_, rfl, .inr (.inr (.inr (.inr (by simpa using h.symm))))⟩
    | writeCmd w =>
      by_cases hb : (advanceTimer s).port.opbusy = true
      · simp only [hostWrite, hb, if_true, reduceCtorEq] at h
      · cases hd : decodeCmd w with
        | ok i =>
          simp only [hostWrite, hb, fetchCmd, hd] at h
          exact .inr ⟨_, rfl, .inl ⟨w, i, by simpa using hb, hd, h⟩⟩
        | error r =>
          simp only [hostWrite, hb, fetchCmd, hd] at h
          exact .inr ⟨_, rfl, .inr (.inl ⟨w, r, by simpa using hb, hd, (Host.Outcome.next.inj h).symm⟩)⟩
    | writeArg v =>
      by_cases hb : (advanceTimer s).port.opbusy = true
      · simp only [hostWrite, hb, if_true, reduceCtorEq] at h
      · simp only [hostWrite, hb] at h
        exact .inr ⟨_, rfl, .inr (.inr (.inl ⟨v, by simpa using hb, (Host.Outcome.next.inj h).symm⟩))⟩
    | writeWbuf i v =>
      by_cases hb : (advanceTimer s).port.opbusy = true
      · simp only [hostWrite, hb, if_true, reduceCtorEq] at h
      · by_cases hi : i < (advanceTimer s).par.bufSize
        · simp only [hostWrite, hb, fetchWbuf, hi, if_true] at h
          exact .inr ⟨_, rfl, .inr (.inr (.inr (.inl ⟨i, v, by simpa using hb, hi, (Host.Outcome.next.inj h).symm⟩)))⟩
        · simp only [hostWrite, hb, fetchWbuf, hi, if_false] at h
          cases h

end Sys2Proof.Machine
end

