-- ==== Sys2Proof/Laws/Bus.lean ====
section
/-! SUPPORT. The order of bus events: how lists of events and of jobs compose, and that the sequencer's programs run from
between cycles to between cycles. -/

namespace Sys2Proof.Machine

theorem busLog_append (hasRw : Bool) (p : BusPhase) (as bs : List Event) :
    busLog hasRw p (as ++ bs) = (busLog hasRw p as).bind fun q => busLog hasRw q bs := by
  induction as generalizing p with
  | nil => rfl
  | cons a as ih => simp only [List.cons_append, busLog]; cases busNext hasRw p a <;> simp [ih]

theorem busLog_snoc {hasRw : Bool} {p q : BusPhase} {as : List Event} (h : busLog hasRw p as = some q) (ev : Event) :
    busLog hasRw p (as ++ [ev]) = busNext hasRw q ev := by
  simp only [busLog_append, h, Option.bind_some, busLog]; cases busNext hasRw q ev <;> rfl

theorem busJobs_append (hasRw : Bool) (p : BusPhase) (as bs : List Job) :
    busJobs hasRw p (as ++ bs) = (busJobs hasRw p as).bind fun q => busJobs hasRw q bs := by
  induction as generalizing p with
  | nil => rfl
  | cons a as ih => simp only [List.cons_append, busJobs]; cases busJob hasRw p a <;> simp [ih]

/-- A list that runs from between cycles to between cycles may be put before any list. -/
theorem busJobs_before {hasRw : Bool} {as : List Job} (h : busJobs hasRw .idle as = some .idle) (bs : List Job) :
    busJobs hasRw .idle (as ++ bs) = busJobs hasRw .idle bs := by rw [busJobs_append, h]; rfl

/-- What a job leaves of a list that ends between cycles. -/
theorem busJobs_cons {hasRw : Bool} {p : BusPhase} {j : Job} {js : List Job} (h : busJobs hasRw p (j :: js) = some .idle) :
    ∃ q, busJob hasRw p j = some q ∧ busJobs hasRw q js = some .idle := by
  simpa only [busJobs, Option.bind_eq_some_iff] using h

theorem busNext_tread (hasRw : Bool) (p : BusPhase) (v w : Word) :
    busNext hasRw p (.tread v) = busNext hasRw p (.tread w) := by cases p <;> rfl

theorem busNext_dsample (hasRw : Bool) (p : BusPhase) (v w : DataVal) :
    busNext hasRw p (.dsample v) = busNext hasRw p (.dsample w) := by cases p <;> rfl

/-- A wait stays where it is. -/
theorem busNext_tread_same {hasRw : Bool} {p q : BusPhase} {v : Word} (h : busNext hasRw p (.tread v) = some q) : q = p := by
  cases p <;> cases h <;> rfl

theorem busNext_treset_same {hasRw : Bool} {p q : BusPhase} (h : busNext hasRw p .treset = some q) : q = p := by
  cases p <;> cases h <;> rfl

/-- After E is set, the phase agrees with it. -/
theorem busNext_e {hasRw v : Bool} {p q : BusPhase} (h : busNext hasRw p (.e v) = some q) : q.enabled = v := by
  cases p with
  | directed rw => cases v <;> cases rw <;> cases h <;> rfl
  | _ => cases v <;> cases h <;> rfl

/-- No other event changes whether the phase has E = 1. -/
theorem busNext_enabled {hasRw : Bool} {p q : BusPhase} {ev : Event} (hev : ∀ v, ev ≠ .e v)
    (h : busNext hasRw p ev = some q) : q.enabled = p.enabled := by
  cases ev with
  | e v => exact absurd rfl (hev v)
  | rw v => cases p with
    | selected => cases hasRw <;> cases h <;> rfl
    | _ => cases h
  | ddir d => cases p with
    | selected => cases hasRw <;> cases d <;> cases h <;> rfl
    | rwSet v => cases v <;> cases d <;> cases h <;> rfl
    | _ => cases h
  | _ => cases p <;> cases h <;> rfl

/-! ### The sequencer's programs -/

theorem busJobs_waitTicks (hasRw : Bool) (n : Word) : busJobs hasRw .idle (waitTicks n) = some .idle := rfl

theorem busJobs_xferWrite (par : Params) (dl rs : Bool) (b : Byte) :
    busJobs par.hasRw .idle (xferWrite par dl rs b) = some .idle := by
  obtain ⟨_, hasRw, _⟩ := par
  cases hasRw <;> cases dl <;> rfl

theorem busJobs_xferRead (par : Params) (dl rs : Bool) (h : par.hasRw = true) :
    busJobs par.hasRw .idle (xferRead par dl rs) = some .idle := by
  obtain ⟨_, hasRw, _⟩ := par
  subst h
  cases dl <;> rfl

theorem busJobs_nibbleCycle (par : Params) (dl : Bool) (n : BitVec 4) :
    busJobs par.hasRw .idle (nibbleCycle par dl n) = some .idle := by
  obtain ⟨_, hasRw, _⟩ := par
  cases hasRw <;> cases dl <;> rfl

theorem busJobs_initSets8 (hasRw : Bool) (par : Params) (fs : Byte) (left k : Nat) :
    busJobs hasRw .idle (initSets8 par fs left k) = some .idle := by
  induction left using Nat.twoStepInduction generalizing k with
  | zero => rfl
  | one => rfl
  | more left _ ih =>
    rw [initSets8, List.append_assoc, busJobs_before (by rfl), busJobs_before (busJobs_waitTicks ..)]
    exact ih _

theorem busJobs_initSets4 (hasRw : Bool) (par : Params) (left k : Nat) :
    busJobs hasRw .idle (initSets4 par left k) = some .idle := by
  induction left generalizing k with
  | zero => rfl
  | succ left ih =>
    rw [initSets4, List.append_assoc, busJobs_before (by rfl), busJobs_before (busJobs_waitTicks ..)]
    exact ih _

end Sys2Proof.Machine
end

