-- ==== Sys2Proof/Laws/Memory.lean ====
section
/-! SUPPORT. The laws of the byte buffers: every write keeps the canonical form, and a read after a write. -/

namespace Sys2Proof.Machine

theorem Memory.wfFrom_mono {low low' : Nat} {m : Memory} (h : Memory.wfFrom low m = true) (hl : low' ≤ low) :
    Memory.wfFrom low' m = true := by
  cases m with
  | nil => rfl
  | cons c m =>
    simp only [Memory.wfFrom, Bool.and_eq_true, decide_eq_true_eq] at h ⊢
    exact ⟨⟨by omega, h.1.2⟩, h.2⟩

theorem Memory.put_wfFrom {low i : Nat} {v : Byte} {m : Memory} (hl : low ≤ i)
    (h : Memory.wfFrom (i + 1) m = true) : Memory.wfFrom low (Memory.put i v m) = true := by
  unfold Memory.put
  split
  · exact Memory.wfFrom_mono h (by omega)
  · simp only [Memory.wfFrom, Bool.and_eq_true, decide_eq_true_eq]
    exact ⟨⟨hl, ‹_›⟩, h⟩

theorem Memory.write_wfFrom {low i : Nat} {v : Byte} {m : Memory} (hl : low ≤ i)
    (h : Memory.wfFrom low m = true) : Memory.wfFrom low (Memory.write m i v) = true := by
  induction m generalizing low with
  | nil => exact Memory.put_wfFrom hl rfl
  | cons c m ih =>
    obtain ⟨a, w⟩ := c
    have hc := h
    simp only [Memory.wfFrom, Bool.and_eq_true, decide_eq_true_eq] at hc
    unfold Memory.write
    split
    · refine Memory.put_wfFrom hl ?_
      simp only [Memory.wfFrom, Bool.and_eq_true, decide_eq_true_eq]
      exact ⟨⟨by omega, hc.1.2⟩, hc.2⟩
    · split
      · exact Memory.put_wfFrom hl (by subst i; exact hc.2)
      · simp only [Memory.wfFrom, Bool.and_eq_true, decide_eq_true_eq]
        exact ⟨hc.1, ih (by omega) hc.2⟩

/-- A write keeps the canonical form. -/
theorem Memory.write_wf {m : Memory} {i : Nat} {v : Byte} (h : m.wf = true) : (Memory.write m i v).wf = true :=
  Memory.write_wfFrom (Nat.zero_le _) h

theorem Memory.put_within {size i : Nat} {v : Byte} {m : Memory} (hi : i < size) (h : m.within size = true) :
    (Memory.put i v m).within size = true := by
  unfold Memory.put
  split
  · exact h
  · simp only [Memory.within, List.all_cons, decide_eq_true hi, Bool.true_and]
    exact h

/-- A write inside the buffer keeps every cell inside it. -/
theorem Memory.write_within {size i : Nat} {v : Byte} {m : Memory} (hi : i < size) (h : m.within size = true) :
    (Memory.write m i v).within size = true := by
  induction m with
  | nil => exact Memory.put_within hi rfl
  | cons c m ih =>
    obtain ⟨a, w⟩ := c
    have hc := h
    simp only [Memory.within, List.all_cons, Bool.and_eq_true] at hc
    unfold Memory.write
    split
    · exact Memory.put_within hi h
    · split
      · exact Memory.put_within hi hc.2
      · simp only [Memory.within, List.all_cons, Bool.and_eq_true]
        exact ⟨hc.1, ih hc.2⟩

theorem Memory.read_below {low i : Nat} {m : Memory} (h : Memory.wfFrom low m = true) (hi : i < low) :
    Memory.read m i = unwrittenByte := by
  induction m generalizing low with
  | nil => rfl
  | cons c m ih =>
    obtain ⟨a, w⟩ := c
    simp only [Memory.wfFrom, Bool.and_eq_true, decide_eq_true_eq] at h
    unfold Memory.read
    rw [if_neg (by omega)]
    exact ih h.2 (by omega)

theorem Memory.read_put {i j : Nat} {v : Byte} {m : Memory} (h : Memory.wfFrom (i + 1) m = true) :
    Memory.read (Memory.put i v m) j = if j = i then v else Memory.read m j := by
  unfold Memory.put
  split
  · split
    · subst j
      rw [Memory.read_below h (Nat.lt_succ_self i)]
      exact Eq.symm ‹_›
    · rfl
  · simp only [Memory.read, eq_comm]

/-- A read after a write gives the byte written at its index, and every other byte as before. -/
theorem Memory.read_writeFrom {low i j : Nat} {v : Byte} {m : Memory} (h : Memory.wfFrom low m = true) :
    Memory.read (Memory.write m i v) j = if j = i then v else Memory.read m j := by
  induction m generalizing low with
  | nil => exact Memory.read_put rfl
  | cons c m ih =>
    obtain ⟨a, w⟩ := c
    have hc := h
    simp only [Memory.wfFrom, Bool.and_eq_true, decide_eq_true_eq] at hc
    unfold Memory.write
    split
    · refine Memory.read_put ?_
      simp only [Memory.wfFrom, Bool.and_eq_true, decide_eq_true_eq]
      exact ⟨⟨by omega, hc.1.2⟩, hc.2⟩
    · split
      · subst i
        rw [Memory.read_put hc.2]
        by_cases hj : j = a
        · simp [hj]
        · simp only [hj, if_false, Memory.read]
          rw [if_neg (fun h' => hj h'.symm)]
      · by_cases ha : a = j
        · simp only [Memory.read, ha, if_true]
          rw [if_neg (by omega)]
        · simp only [Memory.read, ha, if_false]
          exact ih hc.2

/-- A read after a write, in a buffer in canonical form (R47). -/
theorem Memory.read_write {m : Memory} {i j : Nat} {v : Byte} (h : m.wf = true) :
    Memory.read (Memory.write m i v) j = if j = i then v else Memory.read m j :=
  Memory.read_writeFrom h

end Sys2Proof.Machine
end

