-- ==== Sys2Proof/Laws/PerInstr.lean ====
section
/-! SUPPORT. A family of statements, one per instruction: which port an instruction's word belongs to. -/

namespace Sys2Proof.Laws.EncodingPort

/-- The instruction's word is a CMD word exactly when it is an operation of the host (spec/30_encoding.md R61, R69). -/
def Statement (i : Instr) : Prop := (∃ w, encode i = .cmd w) ↔ i.isHostOp = true

theorem of_cmd {i : Instr} {w : Word} (h : encode i = .cmd w) (hi : i.isHostOp = true) : Statement i :=
  ⟨fun _ => hi, fun _ => ⟨w, h⟩⟩

theorem of_bus {i : Instr} {t : BusWord} (h : encode i = .bus t) (hi : i.isHostOp = false) : Statement i :=
  ⟨fun ⟨_, hw⟩ => Encoded.noConfusion (h.symm.trans hw), fun h' => absurd (hi.symm.trans h') (by decide)⟩

theorem tmrElapsed : Statement .tmrElapsed := of_cmd rfl rfl

theorem tmrResetWait : Statement .tmrResetWait := of_cmd rfl rfl

theorem snsRead : Statement .snsRead := of_cmd rfl rfl

theorem lcdInit (cols : Byte) (f n dl : Bool) : Statement (.lcdInit cols f n dl) := of_cmd rfl rfl

theorem lcdSetDisplay (d c b : Bool) : Statement (.lcdSetDisplay d c b) := of_cmd rfl rfl

theorem lcdClear : Statement .lcdClear := of_cmd rfl rfl

theorem lcdHome : Statement .lcdHome := of_cmd rfl rfl

theorem lcdSetAddress (addr : Byte) : Statement (.lcdSetAddress addr) := of_cmd rfl rfl

theorem lcdSetCursor (row col : Byte) : Statement (.lcdSetCursor row col) := of_cmd rfl rfl

theorem lcdWrite (data : Byte) : Statement (.lcdWrite data) := of_cmd rfl rfl

theorem lcdWriteRow (n : Byte) : Statement (.lcdWriteRow n) := of_cmd rfl rfl

theorem lcdRead : Statement .lcdRead := of_cmd rfl rfl

theorem lcdReadRow (n : Byte) : Statement (.lcdReadRow n) := of_cmd rfl rfl

theorem lcdIsBusy : Statement .lcdIsBusy := of_cmd rfl rfl

theorem lcdGetSettings : Statement .lcdGetSettings := of_cmd rfl rfl

theorem busClearDisplay : Statement .busClearDisplay := of_bus rfl rfl

theorem busReturnHome (x : Bool) : Statement (.busReturnHome x) := of_bus rfl rfl

theorem busEntryModeSet (i s : Bool) : Statement (.busEntryModeSet i s) := of_bus rfl rfl

theorem busDisplayControl (d c b : Bool) : Statement (.busDisplayControl d c b) := of_bus rfl rfl

theorem busFunctionSet (dl n f : Bool) : Statement (.busFunctionSet dl n f) := of_bus rfl rfl

theorem busNib3 : Statement .busNib3 := of_bus rfl rfl

theorem busNib2 : Statement .busNib2 := of_bus rfl rfl

theorem busSetDdramAddress (a : BitVec 7) : Statement (.busSetDdramAddress a) := of_bus rfl rfl

theorem busBusyRead : Statement .busBusyRead := of_bus rfl rfl

theorem busDataWrite (data : Byte) : Statement (.busDataWrite data) := of_bus rfl rfl

theorem busDataRead : Statement .busDataRead := of_bus rfl rfl

end Sys2Proof.Laws.EncodingPort
end

