-- ==== Sys2Proof/Laws/Runs.lean ====
section
/-! SUPPORT. How runs compose, what a step does with a running operation's next job, how what a log shows composes, and the wait
of R87: with a timer that keeps pace it ends, and its events are the wait's. -/

namespace Sys2Proof.Machine

/-! ### Runs -/

theorem runs_zero (s : State) : runs 0 s = .next s := rfl

theorem runs_succ {s t : State} (h : step s = .next t) (k : Nat) : runs (k + 1) s = runs k t := by
  have h' : Sys2Proof.core.step s = .next t := h
  simp only [runs, Host.Core.run, h']
  rfl

/-- A run of one step or more begins with a step. -/
theorem runs_head {k : Nat} {s u : State} (h : runs (k + 1) s = .next u) : ∃ t, step s = .next t ∧ runs k t = .next u := by
  cases hs : step s with
  | next t => exact ⟨t, rfl, by rwa [runs_succ hs] at h⟩
  | fault r =>
    have h' : Sys2Proof.core.step s = .fault r := hs
    simp only [runs, Host.Core.run, h', reduceCtorEq] at h
  | refused r =>
    have h' : Sys2Proof.core.step s = .refused r := hs
    simp only [runs, Host.Core.run, h', reduceCtorEq] at h

/-- A run goes on from where a run has come to. -/
theorem runs_add {j : Nat} {s t : State} (h : runs j s = .next t) (k : Nat) : runs (j + k) s = runs k t := by
  induction j generalizing s with
  | zero =>
    cases h
    rw [Nat.zero_add]
  | succ j ih =>
    obtain ⟨u, hs, hu⟩ := runs_head h
    rw [Nat.succ_add, runs_succ hs, ih hu]

/-! ### One step of a running operation -/

/-- The state a job runs in: `k` ticks have passed and the job is taken. -/
def ready (k : Nat) (ticks : List Nat) (js : List Job) (s : State) : State :=
  takeJob js { s with cnt := wrapCnt s.par (s.cnt + BitVec.ofNat 32 k), env.ticks := ticks }

theorem outsideBuffer_congr {s t : State} (hp : s.par = t.par) (hw : s.work = t.work) (j : Job) :
    outsideBuffer s j = outsideBuffer t j := by
  cases j <;> simp only [outsideBuffer, bufferIndex, hp, hw]

/-- With no action of the host, a step runs the next job, when it is no transfer and accesses no byte outside a buffer. -/
theorem step_job {s : State} {j : Job} {js : List Job} {k : Nat} {rest : List Nat} (hi : s.inputs = [])
    (hb : s.port.opbusy = true) (ht : s.todo = j :: js) (hk : s.env.ticks = k :: rest) (hj : ∀ w, j ≠ .transfer w)
    (ho : outsideBuffer s j = false) : step s = .next (runJob j (ready k rest js s)) := by
  have ha := advanceTimer_cons hk
  unfold step fetch fetchInput
  rw [advanceTimer_inputs, hi]
  simp only [ha]
  rw [fetchJob_cons (s := { s with cnt := wrapCnt s.par (s.cnt + BitVec.ofNat 32 k), env.ticks := rest }) hb ht hj]
  exact jobStep_next js ho

/-! ### What a log shows -/

/-- Events that show some items, before events that show others, show the one and then the other. -/
theorem shows_append {as bs : List Event} {ps qs : List Item} (ha : shows as ps = true) (hb : shows bs qs = true) :
    shows (as ++ bs) (ps ++ qs) = true := by
  induction as generalizing ps with
  | nil =>
    cases ps with
    | nil => exact hb
    | cons p ps => cases ha
  | cons e as ih =>
    cases ps with
    | nil => cases e <;> cases ha
    | cons p ps =>
      cases p with
      | ev e' =>
        simp only [shows, Bool.and_eq_true, List.cons_append] at ha ⊢
        exact ⟨ha.1, ih ha.2⟩
      | wait n =>
        simp only [shows, Bool.and_eq_true, List.cons_append] at ha ⊢
        exact ⟨ha.1, ih ha.2⟩
      | reads n =>
        cases e with
        | tread c =>
          simp only [shows, List.cons_append] at ha ⊢
          split at ha
          · rw [if_pos ‹_›]; exact ih ha
          · rw [if_neg ‹_›]; exact ih ha
        | _ => cases ha

theorem shows_ev (e : Event) : shows [e] [.ev e] = true := by cases e <;> simp [shows]

/-! ### The wait of R87 -/

/-- A count that does not wrap is the sum of the count before and the ticks. -/
theorem wrapCnt_ticks {par : Params} {c : Word} {k : Nat} (h : c.toNat + k < cntSpan par) :
    (wrapCnt par (c + BitVec.ofNat 32 k)).toNat = c.toNat + k := by
  have hs := cntSpan_le par
  rw [wrapCnt_add_toNat, BitVec.toNat_ofNat, Nat.mod_eq_of_lt (by omega : k < 2 ^ 32), Nat.mod_eq_of_lt h]

/-- One read of a wait: it ends the wait if it finds at least `n`, and leaves it where it is if not. -/
theorem step_spin {s : State} {n : Word} {js : List Job} {k : Nat} {rest : List Nat} (hi : s.inputs = [])
    (hb : s.port.opbusy = true) (ht : s.todo = .spin n :: js) (hr : s.env.ticks = k :: rest)
    (hk : s.cnt.toNat + k < cntSpan s.par) :
    ∃ c, c.toNat = s.cnt.toNat + k ∧ step s = .next { s with
      todo := if n.toNat ≤ c.toNat then js else s.todo, phase := s.phase.next, cnt := c, env.ticks := rest
      obs.log := s.obs.log ++ [.tread c] } := by
  refine ⟨_, wrapCnt_ticks hk, ?_⟩
  rw [step_job hi hb ht hr (fun w => by simp) rfl]
  by_cases h : n.toNat ≤ (wrapCnt s.par (s.cnt + BitVec.ofNat 32 k)).toNat
  · simp only [runJob, runSpin, ready, takeJob, reached, decide_eq_true_eq, h, if_true, cntRead, emit]
  · simp only [runJob, runSpin, ready, takeJob, reached, decide_eq_true_eq, h, if_false, cntRead, emit, push, ht,
      List.cons_append, List.nil_append]

/-- The reads of a wait for `n` ticks, from a count not above `n`: with at least one tick before each step, and too few to
wrap, they end, within `m` and one more where `n` is at most `m` away, and only the last of them reaches `n`. -/
theorem runs_spin (n : Word) (js : List Job) (m : Nat) (s : State) (hi : s.inputs = []) (hb : s.port.opbusy = true)
    (ht : s.todo = .spin n :: js) (hm : n.toNat ≤ s.cnt.toNat + m) (hc : s.cnt.toNat ≤ n.toNat)
    (hl : m + 1 ≤ s.env.ticks.length) (hk : ∀ k ∈ s.env.ticks, 1 ≤ k ∧ n.toNat + k < cntSpan s.par) :
    ∃ i ph c evs, i ≤ m + 1 ∧ runs i s = .next { s with
        todo := js, phase := ph, cnt := c, env.ticks := s.env.ticks.drop i, obs.log := s.obs.log ++ evs } ∧
      shows evs [.reads n] = true := by
  induction m generalizing s with
  | zero =>
    obtain ⟨k, rest, hr⟩ := List.exists_cons_of_length_pos hl
    have hkk := hk k (by rw [hr]; exact List.mem_cons_self)
    obtain ⟨c, hcn, hs⟩ := step_spin hi hb ht hr (by omega)
    rw [if_pos (by omega)] at hs
    exact ⟨1, s.phase.next, c, [.tread c], Nat.le_refl _, by rw [runs_succ hs, runs_zero, hr]; rfl,
      by simp only [shows]; rw [if_pos (by omega)]; rfl⟩
  | succ m ih =>
    obtain ⟨k, rest, hr⟩ := List.exists_cons_of_length_pos (Nat.lt_of_lt_of_le (Nat.succ_pos _) hl)
    have hkk := hk k (by rw [hr]; exact List.mem_cons_self)
    obtain ⟨c, hcn, hs⟩ := step_spin hi hb ht hr (by omega)
    by_cases hre : n.toNat ≤ c.toNat
    · rw [if_pos hre] at hs
      exact ⟨1, s.phase.next, c, [.tread c], by omega, by rw [runs_succ hs, runs_zero, hr]; rfl,
        by simp only [shows]; rw [if_pos hre]; rfl⟩
    · rw [if_neg hre] at hs
      have hcn' : n.toNat ≤ c.toNat + m := by omega
      have hl' : m + 1 ≤ rest.length := by rw [hr] at hl; simpa using hl
      obtain ⟨i, ph, c', evs, hle, hrun, hsh⟩ := ih { s with
          phase := s.phase.next, cnt := c, env.ticks := rest, obs.log := s.obs.log ++ [.tread c] } hi hb ht hcn'
        (Nat.le_of_not_le hre) hl' (fun k' hk' => hk k' (by rw [hr]; exact List.mem_cons_of_mem _ hk'))
      refine ⟨i + 1, ph, c', .tread c :: evs, by omega, ?_, by simp only [shows]; rw [if_neg hre]; exact hsh⟩
      rw [runs_succ hs, hrun]
      simp only [hr, List.drop_succ_cons, List.append_assoc, List.cons_append, List.nil_append]

/-- WaitTicks(n) ends and shows as a wait of n ticks, and nothing else has changed but CNT and the timer's draws. -/
theorem runs_wait (n : Word) (js : List Job) (s : State) (hi : s.inputs = []) (hb : s.port.opbusy = true)
    (ht : s.todo = waitTicks n ++ js) (hl : n.toNat + 2 ≤ s.env.ticks.length)
    (hk : ∀ k ∈ s.env.ticks, 1 ≤ k ∧ n.toNat + k < cntSpan s.par) :
    ∃ i ph c evs, i ≤ n.toNat + 2 ∧ runs i s = .next { s with
        todo := js, phase := ph, cnt := c, env.ticks := s.env.ticks.drop i, obs.log := s.obs.log ++ evs } ∧
      shows evs [.wait n] = true := by
  obtain ⟨k, rest, hr⟩ := List.exists_cons_of_length_pos (Nat.lt_of_lt_of_le (Nat.succ_pos _) hl)
  have hs := step_job hi hb (show s.todo = .cntReset :: .spin n :: js from ht) hr (fun w => by simp) rfl
  have hstep : runJob .cntReset (ready k rest (.spin n :: js) s) = { s with
      todo := .spin n :: js, cnt := 0, env.ticks := rest, phase := s.phase.next, obs.log := s.obs.log ++ [.treset] } := rfl
  rw [hstep] at hs
  have hrl : n.toNat + 1 ≤ rest.length := by rw [hr] at hl; simpa using hl
  obtain ⟨i, ph, c, evs, hle, hrun, hsh⟩ := runs_spin n js n.toNat { s with
      todo := .spin n :: js, cnt := 0, env.ticks := rest, phase := s.phase.next
      obs.log := s.obs.log ++ [.treset] } hi hb rfl (Nat.le_add_left ..) (Nat.zero_le _) hrl
    (fun k' hk' => hk k' (by rw [hr]; exact List.mem_cons_of_mem _ hk'))
  refine ⟨i + 1, ph, c, .treset :: evs, by omega, ?_, ?_⟩
  · rw [runs_succ hs, hrun]
    simp only [hr, List.drop_succ_cons, List.append_assoc, List.cons_append, List.nil_append]
  · simp only [shows, decide_true, Bool.true_and]; exact hsh

end Sys2Proof.Machine
end

