-- ==== Sys2Proof/Tests/Slice0.lean ====
section
/-! SUPPORT. Our own tests: the well-formedness smoke, words written out from spec/30_encoding.md, single steps against the
vectors of spec/95_test_vectors.md, and for each obligation with hypotheses a concrete state that meets them. -/

namespace Sys2Proof.Tests

open Sys2Proof Sys2Proof.Machine

/-! ### States -/

/-- After reset, at the default TICK_HZ, with or without an RW pin, CNT being 0. -/
def base (rw : Bool) : State := { State.reset with par := Config.paramsAt 10000000 rw, cnt := 0 }

/-- After LCD.INIT 8, 2, 8, 16. -/
def ready (rw : Bool) : State := { base rw with cfg := ⟨true, true, false, 16, true⟩ }

/-- An operation under way, with jobs ahead and draws of the timer, the sensor and the LCD controller. -/
def busy (rw : Bool) (js : List Job) (env : Env) : State :=
  { ready rw with port.opbusy := true, phase := .lcdRun 0, todo := js, env := env }

/-- The host is about to write CMD. -/
def calling (s : State) (w : Word) (ticks : List Nat) : State :=
  { s with inputs := [.writeCmd w], env := ⟨ticks, [], []⟩ }

/-- An operation has just been accepted, and one tick passes before each step, enough of them for `n` jobs. -/
def paced (rw : Bool) (n : Nat) (pins : List Byte) : State :=
  { ready rw with port.opbusy := true, env := ⟨List.replicate (n * (longestWait (base rw).par + 2)) 1, [], pins⟩ }

/-- A step's next state has a property. -/
def nextHas (o : Host.Outcome State Fault Refusal) (p : State → Bool) : Bool :=
  match o with
  | .next t => p t
  | .fault _ | .refused _ => false

/-- The data events ahead. -/
def drives (js : List Job) : List DataVal := js.filterMap fun j => match j with | .drive v => some v | _ => none

/-! ### Well-formedness -/

theorem test_wf_address_bit7 : (Instr.lcdSetAddress 0x80).wellFormed = false := by decide
theorem test_wf_address_last : (Instr.lcdSetAddress 0x7F).wellFormed = true := by decide

/-! ### Decoding: words written out from R62, R63 and R70 to R77 -/

theorem test_decode_timer :
    decodeCmd 0b00000001_00000000_00000000_00000000 = .ok .tmrElapsed ∧
      decodeCmd 0b00000010_00000000_00000000_00000000 = .ok .tmrResetWait := by decide
theorem test_decode_sensor : decodeCmd 0b00010000_00000000_00000000_00000000 = .ok .snsRead := by decide
theorem test_decode_init : decodeCmd 0b00100000_00000000_00010100_00000100 = .ok (.lcdInit 20 true false false) ∧
    decodeCmd 0b00100000_00000000_00010000_00000011 = .ok (.lcdInit 16 false true true) := by decide
theorem test_decode_display : decodeCmd 0b00100001_00000000_00000000_00000110 = .ok (.lcdSetDisplay true true false) ∧
    decodeCmd 0b00100010_00000000_00000000_00000000 = .ok .lcdClear ∧
    decodeCmd 0b00100011_00000000_00000000_00000000 = .ok .lcdHome := by decide
theorem test_decode_address : decodeCmd 0b00100100_00000000_00000000_01000101 = .ok (.lcdSetAddress 0x45) ∧
    decodeCmd 0b00100101_00000000_00000001_00001111 = .ok (.lcdSetCursor 1 15) := by decide
theorem test_decode_write : decodeCmd 0b00100110_00000000_00000000_01000001 = .ok (.lcdWrite 0x41) ∧
    decodeCmd 0b00100111_00000000_00000000_00000101 = .ok (.lcdWriteRow 5) := by decide
theorem test_decode_read : decodeCmd 0b00101000_00000000_00000000_00000000 = .ok .lcdRead ∧
    decodeCmd 0b00101001_00000000_00000000_00000011 = .ok (.lcdReadRow 3) ∧
    decodeCmd 0b00101010_00000000_00000000_00000000 = .ok .lcdIsBusy ∧
    decodeCmd 0b00101011_00000000_00000000_00000000 = .ok .lcdGetSettings := by decide
theorem test_decode_bus : decodeCmdw 0b00000001 = .ok .busClearDisplay ∧
    decodeCmdw 0b00000010 = .ok (.busReturnHome false) ∧ decodeCmdw 0b00000110 = .ok (.busEntryModeSet true false) ∧
    decodeCmdw 0b00001110 = .ok (.busDisplayControl true true false) ∧
    decodeCmdw 0b00111000 = .ok (.busFunctionSet true true false) ∧
    decodeCmdw 0b11000101 = .ok (.busSetDdramAddress 0b1000101) := by decide
theorem test_decode_nibbles : decodeNibble 0b0011 = .ok .busNib3 ∧ decodeNibble 0b0010 = .ok .busNib2 := by decide
theorem test_decode_data : decodeBus .busyr = .ok .busBusyRead ∧ decodeBus (.datw 0xFF) = .ok (.busDataWrite 0xFF) ∧
    decodeBus .datr = .ok .busDataRead := by decide

/-- E-1 to E-7 and L-17: illegal words. -/
theorem test_decode_illegal : decodeCmd 0x00000000 = .error (.unassignedOpc 0) ∧
    decodeCmd 0x03000000 = .error (.unassignedOpc 3) ∧ decodeCmd 0x01000001 = .error .reservedBit ∧
    decodeCmd 0x02000001 = .error .reservedBit ∧ decodeCmd 0x21000008 = .error .reservedBit ∧
    decodeCmd 0x20000008 = .error .reservedBit ∧ decodeCmd 0x20011003 = .error .reservedBit ∧
    decodeCmd 0x24000080 = .error .reservedBit := by decide
/-- R78: the shift and CGRAM commands and 0x00 are never sent. -/
theorem test_decode_never_sent : decodeCmdw 0x00 = .error (.byteNeverSent 0) ∧
    decodeCmdw 0x1C = .error (.byteNeverSent 0x1C) ∧ decodeCmdw 0x40 = .error (.byteNeverSent 0x40) ∧
    decodeNibble 0 = .error (.nibbleNeverSent 0) := by decide
theorem test_table_word : decodeTableWord 32 0x2500010F = some (.lcdSetCursor 1 15) ∧
    decodeTableWord 8 0xC5 = some (.busSetDdramAddress 0x45) ∧ decodeTableWord 4 3 = some .busNib3 := by decide

/-! ### Parameters (R9, R10) -/

theorem test_params : Config.paramsAt 10000000 true =
    { cntWidth := 32, hasRw := true, tickHz := 10000000, idleTimeout := 10000, reqHoldMs := 10, postReleaseWait := 400, ackLimit := 10000,
      bitThreshold := 500, bitPulseLimit := none, frameBits := 40, tSp := 1, tPw := 2, tCyc := 4, pollInterval := 100, maxPolls := 500,
      blindShort := 1000, blindLong := 50000, initRepeat := 3, initWait1 := 41000, initWait2 := 1000, powerOnMs := 15,
      bufSize := 256, rowOffset0 := 0x00, rowOffset1 := 0x40 } := by
  decide

/-! ### Timer -/

/-- T-5: the read is a step of its own. -/
theorem test_elapsed : nextHas (step (busy true [.timerRead] ⟨[250], [], []⟩)) fun t =>
    t.todo == [.timerEnd 250] && t.obs.log == [.tread 250] && t.cnt == 250 && t.port.opbusy := by decide
theorem test_elapsed_ends : nextHas (step (busy true [.timerEnd 250] ⟨[3], [], []⟩)) fun t =>
    t.port.status == 0 && t.port.val == 250 && t.cnt == 3 && !t.port.opbusy && t.phase == .idle := by decide
/-- T-1: the read of 37 goes on, the read of 100 ends. -/
theorem test_reset_wait_goes_on : nextHas (step (busy true [.timerWait 100] ⟨[37], [], []⟩)) fun t =>
    t.obs.log == [.tread 37] && t.port.opbusy && t.todo == [.timerWait 100] := by decide
theorem test_reset_wait_ends : nextHas (step (busy true [.timerWait 100] ⟨[100], [], []⟩)) fun t =>
    t.obs.log == [.tread 100] && t.todo == [.timerEnd 100] && t.port.opbusy := by decide
/-- T-6, T-7, T-10. -/
theorem test_elapsed_wraps : elapsed (base true).par 0x00000010 0xFFFFFFF0 = 0x20 ∧
    elapsed (base true).par 0x1234 0x1234 = 0 ∧ elapsed (base true).par 0x1F5 0xFFFFFF00 = 757 := by decide

/-! ### Sensor -/

/-- A frame in FB, about to be validated. -/
def validating (fb : List Byte) : State :=
  { busy true [.validate] ⟨[0], [], []⟩ with work.fb := fb }

/-- S-OK-1. -/
theorem test_frame_ok : nextHas (step (validating [0x01, 0x90, 0x00, 0xFA, 0x8B])) fun t =>
    t.port.status == 0 && t.port.val == 0x019000FA := by decide
/-- S-CS-1. -/
theorem test_frame_mismatch : nextHas (step (validating [0x01, 0x90, 0x00, 0xFA, 0x8C])) fun t =>
    t.port.status == 3 && t.port.val == 0x00008B8C && t.obs.results == [⟨3, 0x00008B8C, []⟩] := by decide
/-- R106: the buffer that the loop fills. -/
theorem test_store_at : storeAt [] 0 7 = [7] ∧ storeAt [7, 8, 9] 1 5 = [7, 5, 9] ∧ storeAt [7] 1 5 = [7, 5] := by decide
/-- T-12, T-13: 10001 is past the limit; S-ACK-2: 10000 is not. -/
theorem test_ack_limit : pastLimit 10001 10000 = true ∧ pastLimit 10000 10000 = false := by decide
/-- S-THR-1, S-THR-2. -/
theorem test_threshold : bitValue 500 500 = false ∧ bitValue 500 501 = true := by decide

/-! ### LCD operations: the first step -/

/-- L-4, L-5: STATUS 9 and the old configuration. -/
theorem test_init_illegal : (nextHas (step (calling (ready true) 0x20004103 [0])) fun t =>
      t.todo == [.raise .invalidConfig] && t.obs.log == [] && t.cfg == ⟨true, true, false, 16, true⟩) ∧
    (nextHas (step (calling (ready true) 0x20000001 [0])) fun t => t.todo == [.raise .invalidConfig]) := by decide
/-- R14, R161: a raise is a step, and the code of its status. -/
theorem test_raise : ∀ e ∈ [(Status.sensorBusy, (1 : Byte)), (.ackTimeout, 2), (.cursorOutOfBounds, 5), (.notSupported, 6),
      (.notInitialized, 7), (.illegalOp, 8), (.invalidConfig, 9)],
    (nextHas (step (busy true [.raise e.1] ⟨[0], [], []⟩)) fun t =>
      t.port.status == e.2 && !t.port.opbusy && t.phase == .idle && t.obs.log == []) = true := by decide
/-- L-3, L-8: the function-set byte. -/
theorem test_init_starts : nextHas (step (calling (base true) 0x20001007 [0])) fun t =>
    t.cfg == ⟨true, true, true, 16, false⟩ && t.todo.head? == some (.delayMs 15) &&
      (t.todo.drop 1).head? == some (.transfer (.cmdw 0x3C)) := by decide
/-- L-38. -/
theorem test_set_display_uninitialised : nextHas (step (calling (base true) 0x21000006 [0])) fun t =>
    t.todo == [.raise .notInitialized] && t.obs.log == [] := by decide
/-- L-10. -/
theorem test_set_display : nextHas (step (calling (ready true) 0x21000006 [0])) fun t =>
    t.todo == [.transfer (.cmdw 0x0E), .waitReady false, .setSettings true true false, .lcdEnd 0] := by decide
/-- L-13. -/
theorem test_clear : nextHas (step (calling (ready true) 0x22000000 [0])) fun t =>
    t.todo == [.transfer (.cmdw 0x01), .waitReady true, .lcdEnd 0] := by decide
/-- L-14. -/
theorem test_home : nextHas (step (calling (ready false) 0x23000000 [0])) fun t =>
    t.todo == [.transfer (.cmdw 0x02), .waitReady true, .lcdEnd 0] := by decide
/-- L-15, L-16. -/
theorem test_set_address : (nextHas (step (calling (ready true) 0x24000045 [0])) fun t =>
      t.todo == [.transfer (.cmdw 0xC5), .waitReady false, .lcdEnd 0]) ∧
    (nextHas (step (calling (ready true) 0x2400007F [0])) fun t => t.todo.head? == some (.transfer (.cmdw 0xFF))) := by
  decide
/-- L-19. -/
theorem test_set_cursor : nextHas (step (calling (ready true) 0x2500010F [0])) fun t =>
    t.todo == [.transfer (.cmdw 0xCF), .waitReady false, .lcdEnd 1] := by decide
/-- X3. -/
theorem test_set_cursor_out : (nextHas (step (calling (ready true) 0x25000010 [0])) fun t =>
      t.todo == [.raise .cursorOutOfBounds] && t.obs.log == []) ∧
    (nextHas (step (calling (ready true) 0x25000200 [0])) fun t => t.todo == [.raise .cursorOutOfBounds] && t.obs.log == []) := by decide
/-- L-22. -/
theorem test_write : nextHas (step (calling (ready true) 0x26000041 [0])) fun t =>
    t.todo == [.transfer (.datw 0x41), .waitReady false, .lcdEnd 1] := by decide
/-- L-23 and L-24: the cap at the end of the row. -/
theorem test_write_row_cap : (nextHas (step { busy true [.rowCap 5] ⟨[0], [], []⟩ with ac := 0x0E }) fun t =>
      t.work.nXfer == 2) ∧
    (nextHas (step { busy true [.rowCap 3] ⟨[0], [], []⟩ with ac := 0x4F }) fun t => t.work.nXfer == 1) := by decide
/-- L-25 and L-26: an address in no row. -/
theorem test_remaining_none : remaining (base true).par ⟨true, true, false, 16, true⟩ 0x10 = 0 ∧
    remaining (base true).par ⟨true, true, false, 16, true⟩ 0x50 = 0 := by decide
/-- L-31, L-39: NotInitialized before NotSupported. -/
theorem test_read_write_only : (nextHas (step (calling (ready false) 0x28000000 [0])) fun t => t.todo == [.raise .notSupported]) ∧
    (nextHas (step (calling (base false) 0x28000000 [0])) fun t => t.todo == [.raise .notInitialized]) := by decide
/-- L-32: one byte of the row. -/
theorem test_read_row_stores : nextHas (step
      { busy true [.storeRead 2, .waitReady false] ⟨[0], [], []⟩ with work.rx := 0x21, port.rbuf := [(0, 0x48), (1, 0x49)] })
    fun t => t.port.rbuf == [(0, 0x48), (1, 0x49), (2, 0x21)] := by decide
/-- L-34. -/
theorem test_is_busy_ends : nextHas (step { busy true [.busyEnd] ⟨[0], [], []⟩ with work.rx := 0x85, toflag := true })
    fun t => t.port.status == 0 && t.port.val == 0x85 := by decide
theorem test_get_settings : (nextHas (step (calling (ready true) 0x2B000000 [0])) fun t => t.todo == [.settingsEnd]) ∧
    (nextHas (step { busy true [.settingsEnd] ⟨[0], [], []⟩ with set := ⟨true, false, true⟩ }) fun t =>
      t.port.val == 0x80100305 && t.port.status == 0 && t.obs.log == []) ∧
    settingsVal ⟨false, false, true, 20, true⟩ ⟨false, false, false⟩ = 0x80140400 := by decide

/-! ### LCD transfers -/

/-- B-1, B-2: RW is driven iff there is an RW pin. -/
theorem test_write_cycle : busCycleWrite (base true).par false (.byte 0x38) = [.setRS false] ++ waitTicks 1 ++
      [.setRW false, .setDDir .out] ++ waitTicks 1 ++ [.setE true, .drive (.byte 0x38)] ++ waitTicks 2 ++ [.setE false] ++
      waitTicks 4 ∧
    busCycleWrite (base false).par false (.byte 0x38) = [.setRS false] ++ waitTicks 1 ++
      [.setDDir .out] ++ waitTicks 1 ++ [.setE true, .drive (.byte 0x38)] ++ waitTicks 2 ++ [.setE false] ++
      waitTicks 4 := by decide
/-- B-4: the order of a read cycle. -/
theorem test_read_cycle : busCycleRead (base true).par false .full = [.setRS false] ++ waitTicks 1 ++
      [.setRW true, .setDDir .inp] ++ waitTicks 1 ++ [.setE true] ++ waitTicks 2 ++ [.sample .full, .setE false] ++
      waitTicks 4 := by decide
/-- B-3: high nibble first, then AC_SHADOW +7 1. -/
theorem test_data_write_nibbles : nextHas (exec (.busDataWrite 0x41)
      { busy true [] ⟨[], [], []⟩ with cfg := ⟨false, true, false, 16, true⟩ }) fun t =>
    drives t.todo == [.nibble 4, .nibble 1] && t.todo.getLast? == some .incAc := by decide
/-- B-13, B-14. -/
theorem test_nibble_cycle : (nextHas (exec .busNib3 (busy true [] ⟨[], [], []⟩)) fun t =>
      drives t.todo == [.byte 0x30]) ∧
    (nextHas (exec .busNib2 { busy true [] ⟨[], [], []⟩ with cfg := ⟨false, true, false, 16, true⟩ }) fun t =>
      drives t.todo == [.nibble 2]) := by decide
/-- The byte and the AC_SHADOW update of each command. -/
theorem test_command_bytes : (nextHas (exec .busClearDisplay (busy true [] ⟨[], [], []⟩)) fun t =>
      drives t.todo == [.byte 0x01] && t.todo.getLast? == some (.setAc 0)) ∧
    (nextHas (exec (.busReturnHome false) (busy true [] ⟨[], [], []⟩)) fun t =>
      drives t.todo == [.byte 0x02] && t.todo.getLast? == some (.setAc 0)) ∧
    (nextHas (exec (.busEntryModeSet true false) (busy true [] ⟨[], [], []⟩)) fun t => drives t.todo == [.byte 0x06]) ∧
    (nextHas (exec (.busDisplayControl true false false) (busy true [] ⟨[], [], []⟩)) fun t =>
      drives t.todo == [.byte 0x0C]) ∧
    (nextHas (exec (.busFunctionSet false true false) (busy true [] ⟨[], [], []⟩)) fun t =>
      drives t.todo == [.byte 0x28]) ∧
    (nextHas (exec (.busSetDdramAddress 0x45) (busy true [] ⟨[], [], []⟩)) fun t =>
      drives t.todo == [.byte 0xC5] && t.todo.getLast? == some (.setAc 0x45)) := by decide
/-- B-5: the nibbles of a 4-bit read. -/
theorem test_busy_read_nibbles : collected (collected 0 0x8F .high) 0x53 .low = 0x85 ∧ addressCounter 0x85 = 5 ∧
    busyFlag 0x85 = true := by decide
/-- B-7: AC_SHADOW is modulo 128. -/
theorem test_ac_wraps : nextHas (step { busy true [.incAc] ⟨[0], [], []⟩ with ac := 0x7F }) fun t => t.ac == 0 := by
  decide
/-- R134: DOUT[3:0] stands in 4-bit mode. -/
theorem test_drive_nibble : nextHas (step { busy true [.drive (.nibble 0xA)] ⟨[0], [], []⟩ with lcd.dout := 0x35 })
    fun t => t.lcd.dout == 0xA5 && t.obs.log == [.d (.nibble 0xA)] := by decide

/-! ### The fetch of a placed word -/

theorem test_first_step_cmd : nextHas (step ((base true).withFetchWord 32 0x20001003)) fun t =>
    t.port.cmd == 0x20001003 && t.phase == .lcdRun 0 := by decide
theorem test_first_step_bus : nextHas (step ((base true).withFetchWord 8 0x38)) fun t =>
    t.todo.head? == some (.setRS false) := by decide

/-! ### Host side -/

/-- R111's examples. -/
theorem test_f32 : f32DivTen 400 = 0x42200000 ∧ f32DivTen 250 = 0x41C80000 ∧ f32DivTen 65535 = 0x45CCCC00 ∧
    f32DivTen 1 = 0x3DCCCCCD := by decide
theorem test_assemble : assemble 10000000 "LCD.INIT 8, 2, 8, 16" = some ⟨.lcdInit 16 false true true, none⟩ ∧
    assemble 10000000 "LCD.WRITE 'A'" = some ⟨.lcdWrite 0x41, none⟩ ∧ assemble 10000000 "LCD.WRITE 'é'" = none ∧
    assemble 10000000 "LCD.SET_ADDRESS 0x45" = some ⟨.lcdSetAddress 0x45, none⟩ ∧
    assemble 10000000 "TMR.DELAY_US 40" = some ⟨.tmrResetWait, some 400⟩ ∧
    assemble 10000000 "TMR.RESET" = some ⟨.tmrResetWait, some 0⟩ := by decide
/-- R41, R9: after an RST the buffers have FRAME_BITS entries. -/
theorem test_reset_buffers : nextHas (step { base true with par.frameBits := 16, inputs := [.rst], env := ⟨[0], [], []⟩ }) fun t =>
    t.work.low.length == 16 && t.work.high.length == 16 && t.work.fb.length == 2 := by decide

/-! ### Witnesses: states that meet an obligation's hypotheses, clause by clause -/

/-- The outcome is a fault, this one. -/
def isFault (f : Fault) (o : Host.Outcome State Fault Refusal) : Bool :=
  match o with
  | .fault f' => decide (f' = f)
  | .next _ | .refused _ => false

theorem exists_next {o : Host.Outcome State Fault Refusal} {p : State → Bool} (h : nextHas o p = true) :
    ∃ t, o = .next t ∧ p t = true := by
  cases o with
  | next t => exact ⟨t, rfl, h⟩
  | fault r => cases h
  | refused r => cases h

theorem witness_DecodeOfEncode : ∃ i : Instr, i.wellFormed = true := ⟨.lcdSetAddress 0x7F, by decide⟩
theorem witness_EncodeOfDecode : decode (.cmd 0x20008001) = .ok (.lcdInit 128 false false true) ∧
    decode (.bus (.cmdw 0x03)) = .ok (.busReturnHome true) := by decide

theorem witness_StepRunsDecodedInstruction :
    ((calling (ready true) 0x2B000000 [0]).inputs = [.writeCmd 0x2B000000] ∧
      (calling (ready true) 0x2B000000 [0]).port.opbusy = false ∧ decode (.cmd 0x2B000000) = .ok .lcdGetSettings) ∧
    ((busy true [.transfer (.cmdw 1), .poll] ⟨[0], [], []⟩).inputs = [] ∧
      (busy true [.transfer (.cmdw 1), .poll] ⟨[0], [], []⟩).port.opbusy = true ∧
      (busy true [.transfer (.cmdw 1), .poll] ⟨[0], [], []⟩).todo = [.transfer (.cmdw 1), .poll] ∧
      decode (.bus (.cmdw 1)) = .ok .busClearDisplay) := by decide
theorem witness_IllegalWordGivesStatusEight : (calling (base true) 0x24000080 [0]).inputs = [.writeCmd 0x24000080] ∧
    AtIdle (calling (base true) 0x24000080 [0]) ∧ legalCmd 0x24000080 = false :=
  ⟨rfl, ⟨rfl, rfl, rfl⟩, by decide⟩
theorem witness_HostWriteWhileBusyFaults : ∀ x ∈ [Input.writeCmd 0, .writeArg 0, .writeWbuf 255 0],
    ({ busy true [.poll] ⟨[0], [], []⟩ with inputs := [x] } : State).port.opbusy = true ∧
      isFault .hostWroteWhileBusy (step { busy true [.poll] ⟨[0], [], []⟩ with inputs := [x] }) = true := by decide
theorem witness_HostWritesStand :
    (base true).port.opbusy = false ∧ (base true).port.wbuf.wf = true ∧ 255 < (base true).par.bufSize ∧
      ({ base true with inputs := [.writeArg 7] } : State).inputs = [.writeArg 7] ∧
      ({ base true with inputs := [.writeWbuf 255 7] } : State).inputs = [.writeWbuf 255 7] := by decide

/-- A buffer of 16 bytes. -/
def small (js : List Job) : State :=
  { busy true js ⟨[0], [], []⟩ with par := { (base true).par with bufSize := 16 }, work.nXfer := 17 }
theorem witness_AccessOutsideBufferFaults :
    isFault .outsideBuffer (step { base true with inputs := [.writeWbuf 256 7], env := ⟨[0], [], []⟩ }) = true ∧
    isFault .outsideBuffer (step (small [.storeRead 16])) = true ∧
    isFault .outsideBuffer (step (small [.writeNext 16])) = true ∧
    (nextHas (step (small [.writeNext 15])) fun t => t.todo.length == 3) = true ∧
    (nextHas (step { busy true [.storeRead 254] ⟨[0], [], []⟩ with work.nXfer := 255 }) fun t => t.todo == []) = true ∧
    (busy true [.writeNext 255] ⟨[0], [], []⟩).par.bufSize = 256 := by decide
theorem witness_IdleStepIsTheTimers : (base true).port.opbusy = false ∧ (base true).inputs = [] := by decide
theorem witness_ResetDuringOperation :
    ({ busy true [.setE false] ⟨[0], [], []⟩ with inputs := [.rst] } : State).inputs = [.rst] := rfl

/-- Steps of each clause of the statements about who writes what. -/
theorem witness_CntWriters :
    (∃ t, step (busy true [.cntReset] ⟨[5], [], []⟩) = .next t ∧ (t.cnt == 0 && t.obs.log == [.treset]) = true) ∧
    (∃ t, step (busy true [.spin 9] ⟨[5], [], []⟩) = .next t ∧ (t.cnt == 5) = true) :=
  ⟨exists_next (by decide), exists_next (by decide)⟩
theorem witness_ElapsedWrapLaw :
    ∃ u, runs 2 { base true with cnt := 0xFFFFFFF0, env := ⟨[16, 16], [], []⟩ } = .next u ∧
      (u.obs.log == [] && u.cnt == 0x10) = true := exists_next (by decide)
theorem witness_LogGrowsByOneEvent :
    (∃ t, step (busy true [.setRS true] ⟨[0], [], []⟩) = .next t ∧ (t.obs.log == [.rs true]) = true) ∧
    (∃ t, step (busy true [.poll] ⟨[0], [], []⟩) = .next t ∧ (t.obs.log == []) = true) :=
  ⟨exists_next (by decide), exists_next (by decide)⟩
theorem witness_AcShadowWriters :
    (∃ t, step (busy true [.setAc 0x7F] ⟨[0], [], []⟩) = .next t ∧ (t.ac == 0x7F) = true) ∧
    (∃ t, step (busy true [.incAc] ⟨[0], [], []⟩) = .next t ∧ (t.ac == 1) = true) ∧
    (∃ t, step { busy true [.acFromRead] ⟨[0], [], []⟩ with work.rx := 0x85 } = .next t ∧ (t.ac == 5) = true) :=
  ⟨exists_next (by decide), exists_next (by decide), exists_next (by decide)⟩
theorem witness_PinWriters :
    (∃ t, step (busy true [.snsConfig .outOd] ⟨[0], [], []⟩) = .next t ∧ (t.sns == ⟨.outOd, true⟩) = true) ∧
    (∃ t, step (busy true [.snsDrive false] ⟨[0], [], []⟩) = .next t ∧ (t.sns == ⟨.inPu, false⟩) = true) ∧
    (∃ t, step (busy true [.setRS true] ⟨[0], [], []⟩) = .next t ∧ (t.lcd.rs) = true) ∧
    (∃ t, step (busy true [.setRW true] ⟨[0], [], []⟩) = .next t ∧ (t.lcd.rw) = true) ∧
    (∃ t, step (busy true [.setE true] ⟨[0], [], []⟩) = .next t ∧ (t.lcd.e) = true) ∧
    (∃ t, step (busy true [.setDDir .out] ⟨[0], [], []⟩) = .next t ∧ (t.lcd.ddir == .out) = true) ∧
    (∃ t, step (busy true [.drive (.byte 1)] ⟨[0], [], []⟩) = .next t ∧ (t.lcd.dout == 1) = true) :=
  ⟨exists_next (by decide), exists_next (by decide), exists_next (by decide), exists_next (by decide),
    exists_next (by decide), exists_next (by decide), exists_next (by decide)⟩
theorem witness_StatusWriters :
    ∃ t, step (busy true [.timerEnd 5] ⟨[5], [], []⟩) = .next t ∧ (t.obs.results == [⟨0, 5, []⟩]) = true :=
  exists_next (by decide)
theorem witness_ConfigAndSettingsWriters :
    (∃ t, step (calling (base true) 0x20004003 [0]) = .next t ∧ (t.cfg == ⟨true, true, false, 64, false⟩) = true) ∧
    (∃ t, step { busy true [.initEnd] ⟨[0], [], []⟩ with cfg.initDone := false, set := ⟨true, true, true⟩ } = .next t ∧
      (t.cfg.initDone && t.set == ⟨false, false, false⟩) = true) ∧
    (∃ t, step (busy true [.setSettings true false true] ⟨[0], [], []⟩) = .next t ∧
      (t.set == ⟨true, false, true⟩) = true) :=
  ⟨exists_next (by decide), exists_next (by decide), exists_next (by decide)⟩
theorem witness_BufferWriters :
    (∃ t, step { busy true [.storeRead 255] ⟨[0], [], []⟩ with work.rx := 9 } = .next t ∧
      (t.port.rbuf == [(255, 9)]) = true) ∧
    (∃ t, step { base true with inputs := [.writeWbuf 0 9], env := ⟨[0], [], []⟩ } = .next t ∧
      (t.port.wbuf == [(0, 9)]) = true) ∧ (base true).port.rbuf.wf = true :=
  ⟨exists_next (by decide), exists_next (by decide), by decide⟩

/-- Inside a write cycle. -/
def inCycle : State :=
  { busy true [.setE false, .cntReset, .spin 4] ⟨[0], [], []⟩ with
    lcd.e := true, obs.log := [.rs false, .rw false, .ddir .out, .e true, .d (.byte 1)] }
theorem witness_StepKeepsBusOrder : BusOrdered inCycle ∧ ∃ t, step inCycle = .next t ∧ (!t.lcd.e) = true :=
  ⟨⟨.applied, by decide, by decide, by decide, by decide⟩, exists_next (by decide)⟩

/-- While the block pulls the sensor line low. -/
def pulling : State :=
  { busy true [.delayMs 10, .snsDrive true, .snsConfig .inPu, .snapT0] ⟨[0], [], []⟩ with sns := ⟨.outOd, false⟩ }
theorem witness_StepKeepsSensorPinSafe : SensorPinSafe pulling ∧ ∃ t, step pulling = .next t ∧
    (t.obs.log == [.delayMs 10]) = true := ⟨⟨by decide, by decide⟩, exists_next (by decide)⟩
theorem witness_StepKeepsPhaseMatchesBusy : PhaseMatchesBusy pulling ∧ PhaseMatchesBusy (base true) ∧
    ∃ t, step pulling = .next t ∧ t.port.opbusy = true :=
  ⟨⟨by decide, by decide⟩, ⟨by decide, by decide⟩, exists_next (by decide)⟩
theorem witness_StepKeepsConfigSafe :
    ConfigSafe { busy true [.initEnd] ⟨[0], [], []⟩ with cfg := ⟨true, true, false, 64, false⟩ } ∧
    ∃ t, step { busy true [.initEnd] ⟨[0], [], []⟩ with cfg := ⟨true, true, false, 64, false⟩ } = .next t ∧
      t.cfg.initDone = true := ⟨fun _ => by decide, exists_next (by decide)⟩
theorem witness_StepKeepsBuffersCanonical :
    BuffersCanonical { busy true [.storeRead 255] ⟨[0], [], []⟩ with port.rbuf := [(255, 7)] } ∧
    ∃ t, step { busy true [.storeRead 255] ⟨[0], [], []⟩ with port.rbuf := [(255, 7)] } = .next t ∧
      (t.port.rbuf == []) = true :=
  ⟨⟨by decide, by decide, by decide, by decide⟩, exists_next (by decide)⟩

/-- TMR.RESET_WAIT just accepted, ARG = 100. -/
def waiting (ticks : List Nat) : State :=
  { base true with port.opbusy := true, port.arg := 100, env := ⟨ticks, [], []⟩ }
theorem witness_ResetWaitWaits :
    ((waiting [0, 37, 63, 9]).env.ticks = 0 :: ([37] ++ 63 :: 9 :: []) ∧ [37].sum < (waiting [0, 37, 63, 9]).port.arg.toNat ∧
      (waiting [0, 37, 63, 9]).port.arg.toNat ≤ [37].sum + 63 ∧ (waiting [0, 37, 63, 9]).inputs = [] ∧
      (waiting [0, 37, 63, 9]).port.opbusy = true) ∧
    ((waiting [0, 150, 9]).env.ticks = 0 :: ([] ++ 150 :: 9 :: []) ∧
      (waiting [0, 150, 9]).port.arg.toNat ≤ ([] : List Nat).sum + 150) := by
  decide
theorem witness_ElapsedReadsCounter : (waiting [250, 3]).inputs = [] ∧ (waiting [250, 3]).port.opbusy = true := by decide

/-- A pulse of two samples that measures `h` ticks, for `h` of at least 9. -/
def pulseOf (h : Nat) : Pulse := ⟨1, [(2, 3)], 4, h - 9⟩

/-- An SNS.READ with one low sample in its idle check, a read of its wait that finds it below, and `n` pulses of `h` ticks. -/
def readingOf (n h : Nat) : Reading := ⟨1, 2, [(3, 4)], 5, List.replicate 7 1, [100], 300, List.replicate n (pulseOf h)⟩

theorem readingOf_fits {n h : Nat} (hn : n ≤ 82) (hs : (pulseOf h).span ≤ 10000) : (readingOf n h).Fits (base true).par :=
  ⟨(by decide : heldTicks (readingOf 0 0).low ≤ (base true).par.idleTimeout.toNat), rfl,
    .inr (by decide : (readingOf 0 0).reads.sum < (base true).par.postReleaseWait.toNat), (by decide : (base true).par.postReleaseWait.toNat ≤ (readingOf 0 0).released),
    (by decide : (readingOf 0 0).released < cntSpan (base true).par),
    by rw [show (readingOf n h).pulses.length = n from List.length_replicate]; exact hn, fun j p hp => by
      have e : p = pulseOf h := List.eq_of_mem_replicate (List.mem_of_getElem? hp)
      refine ⟨?_, fun l hl => ?_⟩
      · rw [e]; exact Nat.lt_of_le_of_lt hs (by decide)
      · rw [e]
        unfold pulseLimit at hl
        split at hl
        · obtain rfl : (base true).par.ackLimit = l := Option.some.inj hl
          exact Nat.le_trans hs (by decide)
        · exact absurd hl (by simp [base, Config.paramsAt])⟩

/-- SNS.READ just accepted, the sensor about to send a frame whose pulses all measure `h` ticks. -/
def framed (h : Nat) : State :=
  { base true with
    port.opbusy := true
    env := ⟨(readingOf 82 h).ticks (base true).par ++ [0, 0, 0, 0], (readingOf 82 h).line, []⟩ }
theorem witness_SensorReadsFrame : ∀ h ∈ [500, 501], (framed h).inputs = [] ∧ (framed h).port.opbusy = true ∧
    (readingOf 82 h).Fits (framed h).par ∧ (readingOf 82 h).pulses.length = 2 + 2 * (framed h).par.frameBits ∧
    (framed h).env.ticks = (readingOf 82 h).ticks (framed h).par ++ [0, 0, 0, 0] ++ [] ∧
    (framed h).env.line = (readingOf 82 h).line ++ [] := fun h hh =>
  ⟨rfl, rfl, readingOf_fits (Nat.le_refl _) ((by decide : ∀ h ∈ [500, 501], (pulseOf h).span ≤ 10000) h hh),
    List.length_replicate, (List.append_nil _).symm, (List.append_nil _).symm⟩
/-- Both clauses: forty zero bits hold the checksum, forty one bits (S-8-B) do not. -/
theorem witness_SensorReadsFrame_clauses : (readingOf 82 500).highs = List.replicate 40 500 ∧
    (readingOf 82 501).highs = List.replicate 40 501 ∧
    checksum (decodeFrame 500 40 (List.replicate 40 500)) = frameAt (decodeFrame 500 40 (List.replicate 40 500)) 4 ∧
    checksum (decodeFrame 500 40 (List.replicate 40 501)) ≠ frameAt (decodeFrame 500 40 (List.replicate 40 501)) 4 := by
  decide
theorem witness_FrameBitsMsbFirst : (List.replicate 40 (501 : Word)).length = 40 ∧
    (decodeFrame 500 40 (List.replicate 40 501))[4]? = some 0xFF ∧ (List.replicate 40 (501 : Word))[39]? = some 501 := by
  decide
theorem witness_ValidateFrame : (validating [0, 0, 0, 0, 0]).port.opbusy = true ∧
    (validating [0, 0, 0, 0, 0]).inputs = [] ∧ (validating [0, 0, 0, 0, 0]).todo = [.validate] ∧
    (validating [0, 0, 0, 0, 0]).work.fb = 0 :: 0 :: 0 :: 0 :: 0 :: [] ∧ (0 + 0 + 0 + 0 : Byte) = 0 ∧
    (validating [0, 0, 0, 0, 1]).work.fb = 0 :: 0 :: 0 :: 0 :: 1 :: [] ∧ (0 + 0 + 0 + 0 : Byte) ≠ 1 := by decide
/-- SNS.READ just accepted. One check finds the limit itself, 10000 ticks; the next finds 10001, or the next sample is high. -/
def waitingLow (line : List Bool) : State :=
  { base true with port.opbusy := true, env := ⟨[7, 8, 4000, 6000, 1, 0], line, []⟩ }
theorem witness_SensorBusyOnLowLine : (waitingLow [false, false]).inputs = [] ∧ (waitingLow []).port.opbusy = true ∧
    (waitingLow []).env.ticks = 7 :: 8 :: (heldDraws true [(4000, 6000)] ++ 1 :: 0 :: []) ∧
    heldTicks [(4000, 6000)] ≤ (waitingLow []).par.idleTimeout.toNat ∧
    (waitingLow [false, false]).env.line = List.replicate (1 + 1) false ++ [] ∧
    (waitingLow []).par.idleTimeout.toNat < heldTicks [(4000, 6000)] + 1 + 0 ∧
    heldTicks [(4000, 6000)] + 1 + 0 < cntSpan (waitingLow []).par ∧
    (waitingLow [false, true]).env.line = List.replicate 1 false ++ true :: [] := by decide
/-- Both sides of the limit at the check. -/
theorem witness_AckTimeoutPastLimit : ∀ k ∈ [10000, 10001],
    (busy true [.pulseCheck false 10000 .discard] ⟨[k], [], []⟩).port.opbusy = true ∧
    (busy true [.pulseCheck false 10000 .discard] ⟨[k], [], []⟩).inputs = [] ∧
    (nextHas (step (busy true [.pulseCheck false 10000 .discard] ⟨[k], [], []⟩)) fun t =>
      t.todo == if k = 10001 then [.raise .ackTimeout] else [.pulse false (some 10000) .discard]) = true := by decide

/-- A pulse that is at the limit, 10000 ticks, when it is still at the level, and past it one tick later. -/
def longPulse : Pulse := ⟨1, [(4000, 6000)], 1, 0⟩
/-- SNS.READ just accepted; the acknowledgement's low pulse is good and its high pulse too long: found by a check or at its end. -/
def tooLong (draws : List Nat) (line : List Bool) : State :=
  { base true with
    port.opbusy := true
    env := ⟨(readingOf 1 9).ticks (base true).par ++ pulseGap 1 ++ draws, (readingOf 1 9).line ++ line, []⟩ }
theorem witness_AckTimeoutPastLimit_reading : (readingOf 1 9).Fits (base true).par := readingOf_fits (by decide) (by decide)
theorem witness_AckTimeoutPastLimit_clauses : (readingOf 1 9).pulses.length = 1 ∧
    pulseLimit (base true).par 1 = some 10000 ∧ heldTicks longPulse.held ≤ (10000 : Word).toNat ∧
    (10000 : Word).toNat < longPulse.span ∧ longPulse.span < cntSpan (base true).par ∧
    (tooLong (longPulse.draws true) (longPulse.line (pulseLevel 1))).env.ticks =
      (readingOf 1 9).ticks (base true).par ++ pulseGap 1 ++ longPulse.draws true ++ [] ∧
    (tooLong (1 :: heldDraws true [(4000, 6000), (1, 0)]) [true, true]).env.line =
      (readingOf 1 9).line ++ List.replicate (longPulse.held.length + 1) (pulseLevel 1) ++ [] := by decide
theorem witness_MeasurementEnds : ∀ k ∈ [10000, 10001],
    (nextHas (step (busy true [.pulseEnd (some 10000) .low] ⟨[k], [], []⟩)) fun t =>
      if k = 10001 then t.todo == [.raise .ackTimeout] else t.work.low.head? == some 10000) = true ∧
    (nextHas (step (busy true [.pulseEnd none .high] ⟨[k], [], []⟩)) fun t =>
      t.work.high.head? == some (BitVec.ofNat 32 k)) = true := by
  decide
/-- The sample's clause, with and without a limit, and the whole measurement's: a bit's high pulse of two samples. -/
theorem witness_MeasurementEnds_sample : ∀ v : Bool,
    (nextHas (step (busy true [.pulse true (some 5) .high] ⟨[0], [v], []⟩)) fun t =>
      t.todo == if v then [.pulseCheck true 5 .high] else [.pulseEnd (some 5) .high]) = true := by decide
theorem witness_MeasurementEnds_whole : (busy true [] ⟨[], [], []⟩).sns = snsAtRest ∧
    (pulseOf 501).span < cntSpan (base true).par ∧ (pulseOf 501).span ≤ (501 : Word).toNat ∧
    (busy true (measurePulse true (some 501) .high) ⟨(pulseOf 501).draws true, (pulseOf 501).line true, []⟩).env.line =
      (pulseOf 501).line true ++ [] := by decide
theorem witness_StuckLineNeverEnds : ∃ s : State, s.port.opbusy = true ∧ s.inputs = [] ∧ s.sns = snsAtRest ∧
    s.todo = [.pulse true none .high] ∧ s.env.line = List.replicate 3 true ++ [] :=
  ⟨busy true [.pulse true none .high] ⟨[0, 0, 0], [true, true, true], []⟩, by decide⟩

/-- The timer of a paced state keeps pace. -/
theorem paced_spec (rw : Bool) (n : Nat) (pins : List Byte) : Paced n (paced rw n pins) :=
  ⟨rfl, rfl, Nat.le_of_eq List.length_replicate.symm, fun k hk => by
    rw [(List.mem_replicate.1 hk).2]
    exact (by decide : ∀ rw, 1 ≤ 1 ∧ longestWait (base rw).par + 1 < cntSpan (base rw).par) rw⟩

/-- The same state with jobs ahead. -/
theorem paced_todo {n : Nat} {s : State} (h : Paced n s) (js : List Job) : Paced n { s with todo := js } := h

theorem witness_WriteCycleEvents : ∀ rw, Paced 20 { paced rw 20 [] with
    todo := busCycleWrite (paced rw 20 []).par true (.byte 0x41) ++ [.poll] } := fun rw => paced_todo (paced_spec rw 20 []) _
theorem witness_ReadCycleEvents : Paced 20 { paced true 20 [0x85] with
      todo := busCycleRead (paced true 20 [0x85]).par false .full ++ [.poll] } ∧
    (paced true 20 [0x85]).par.hasRw = true ∧ (paced true 20 [0x85]).env.pins = [0x85] :=
  ⟨paced_todo (paced_spec true 20 _) _, rfl, rfl⟩
theorem witness_WriteTransfersComplete : ∀ rw, Paced 60 (paced rw 60 []) := fun rw => paced_spec rw 60 []
theorem witness_ReadTransfersComplete : Paced 60 (paced true 60 [0x85]) ∧ (paced true 60 [0x85]).par.hasRw = true ∧
    1 ≤ (answers (paced true 60 [0x85]).cfg.dl (paced true 60 [0x85]).env.pins).length :=
  ⟨paced_spec true 60 _, rfl, by decide⟩
theorem witness_BusReadsNeedTheReadPin : (busy false [] ⟨[], [], []⟩).par.hasRw = false ∧
    (busy false [] ⟨[], [], []⟩).inputs = [] ∧ (busy false [] ⟨[], [], []⟩).port.opbusy = true := ⟨rfl, rfl, rfl⟩
/-- Ready; busy with a poll left; busy at the last poll. -/
theorem witness_PollDecision :
    (busy true [.pollTest] ⟨[0], [], []⟩).todo = [.pollTest] ∧ busyFlag 0x0A = false ∧ busyFlag 0x80 = true ∧
    (nextHas (step { busy true [.pollTest] ⟨[0], [], []⟩ with work.rx := 0x0A }) fun t => t.todo == []) = true ∧
    (nextHas (step { busy true [.pollTest] ⟨[0], [], []⟩ with work.rx := 0x80, work.polls := 498 }) fun t =>
      t.todo == [.cntReset, .spin 100, .poll] && !t.toflag) = true ∧
    (nextHas (step { busy true [.pollTest] ⟨[0], [], []⟩ with work.rx := 0x80, work.polls := 499 }) fun t =>
      t.todo == [] && t.toflag) = true := by decide
theorem witness_BlindWait : ∀ long, Paced 5 { paced false 5 [] with todo := [.waitReady long, .poll] } ∧
    (paced false 5 []).par.hasRw = false := fun _ => ⟨paced_todo (paced_spec false 5 []) _, rfl⟩

/-- An operation has been accepted, and the host does nothing more. -/
def accepted (s : State) : State := { s with port.opbusy := true }

theorem witness_NotInitialized : (accepted (base true)).inputs = [] ∧ (accepted (base true)).port.opbusy = true ∧
    needsInit (.lcdSetAddress 0x7F) = true ∧ (Instr.lcdSetAddress 0x7F).wellFormed = true ∧
    (base true).cfg.initDone = false := by decide
theorem witness_NotSupportedWithoutReadPin : (accepted (ready false)).inputs = [] ∧
    (accepted (ready false)).port.opbusy = true ∧ needsReadPin .lcdIsBusy = true ∧ (ready false).cfg.initDone = true ∧
    (ready false).par.hasRw = false := by decide
theorem witness_InvalidConfig : (accepted (base true)).inputs = [] ∧ (accepted (base true)).port.opbusy = true ∧
    configLegal (base true).par true 0 = false ∧ configLegal (base true).par true 65 = false ∧
    configLegal (base true).par false 129 = false ∧ (base true).par.rowOffset0 = 0x00 ∧
    (base true).par.rowOffset1 = 0x40 := by decide
theorem witness_CursorOutOfBounds : (accepted (ready true)).inputs = [] ∧ (accepted (ready true)).port.opbusy = true ∧
    (ready true).cfg.initDone = true ∧
    (if (ready true).cfg.n then 2 else 1) ≤ (2 : Byte).toNat ∧ (ready true).cfg.cols.toNat ≤ (16 : Byte).toNat := by decide
theorem witness_CursorAddressFits :
    (configLegal (base true).par true 64 = true ∧ cursorInBounds ⟨true, true, false, 64, true⟩ 1 63 = true) ∧
    (configLegal (base true).par false 128 = true ∧ cursorInBounds ⟨true, false, false, 128, true⟩ 0 127 = true) := by decide

/-- On an 8-bit bus each draw of LCD_D is an answer. -/
theorem answered_of {n : Nat} {s : State} (h : n * (s.par.maxPolls + 2) ≤ s.env.pins.length) : Answered true n s :=
  fun _ => by
    have e : answers true s.env.pins = s.env.pins := by simp [answers]
    rwa [e]

/-- An operation accepted on an 8-bit bus, with a timer and a controller for `w` waits until ready that make at most two polls
each; the controller always gives the answer `b`. -/
def answering (rw : Bool) (jobs w : Nat) (b : Byte) : State :=
  { paced rw jobs (List.replicate (w * 4) b) with par := { (base rw).par with maxPolls := 2 } }

theorem answering_paced (rw : Bool) (n w : Nat) (b : Byte) : Paced n (answering rw n w b) := by
  obtain ⟨h1, h2, h3, h4⟩ := paced_spec rw n (List.replicate (w * 4) b)
  exact ⟨h1, h2, h3, h4⟩

theorem answering_answered (rw : Bool) (n w : Nat) (b : Byte) : Answered true w (answering rw n w b) :=
  answered_of (Nat.le_of_eq List.length_replicate.symm)

/-- Both bus widths of the wiring, and a controller that is ready and one that stays busy. -/
theorem witness_InitCompletes : ∀ rw, ∀ b ∈ [(0x05 : Byte), 0x85],
    configLegal (answering rw (300 * 4) 4 b).par true 64 = true ∧ configLegal (answering rw (300 * 4) 4 b).par false 128 = true ∧
    (answering rw (300 * 4) 4 b).par.legal = true ∧ Paced (300 * ((answering rw (300 * 4) 4 b).par.maxPolls + 2))
      (answering rw (300 * 4) 4 b) ∧ Answered true 4 (answering rw (300 * 4) 4 b) :=
  fun rw b _ => ⟨(by decide : ∀ rw, configLegal (base rw).par true 64 = true) rw,
    (by decide : ∀ rw, configLegal (base rw).par false 128 = true) rw, rfl, answering_paced rw _ _ b,
    answering_answered rw _ _ b⟩
/-- The hypotheses that the operations of one transfer share. -/
def CanTransfer (s : State) : Prop :=
  s.cfg.initDone = true ∧ Paced (50 * (s.par.maxPolls + 2)) s ∧ Answered s.cfg.dl 1 s
/-- A wiring and a controller that meet them: one that is ready, and one that stays busy. -/
theorem witness_one_transfer : ∀ rw, ∀ b ∈ [(0x05 : Byte), 0x85], CanTransfer (answering rw (50 * 4) 1 b) :=
  fun rw b _ => ⟨rfl, answering_paced rw _ _ b, answering_answered rw _ _ b⟩
theorem witness_SetDisplayCompletes : CanTransfer (answering true (50 * 4) 1 0x85) :=
  witness_one_transfer true 0x85 (by decide)
theorem witness_ClearAndHomeComplete : CanTransfer (answering false (50 * 4) 1 0x05) ∧
    CanTransfer (answering true (50 * 4) 1 0x05) :=
  ⟨witness_one_transfer false 5 (by decide), witness_one_transfer true 5 (by decide)⟩
theorem witness_SetAddressCompletes : (0x7F : Byte).toNat < 0x80 ∧
    ∀ rw, ∀ b ∈ [(0x05 : Byte), 0x85], CanTransfer (answering rw (50 * 4) 1 b) := ⟨by decide, witness_one_transfer⟩
theorem witness_SetCursorCompletes : (∀ rw, configLegal (base rw).par (ready rw).cfg.n (ready rw).cfg.cols = true ∧
      cursorInBounds (ready rw).cfg 1 15 = true ∧ (0x4F : Byte) = (base rw).par.rowOffset1 + 15) ∧
    ∀ rw, ∀ b ∈ [(0x05 : Byte), 0x85], CanTransfer (answering rw (50 * 4) 1 b) := ⟨by decide, witness_one_transfer⟩
theorem witness_WriteCompletes : CanTransfer (answering false (50 * 4) 1 0x85) :=
  witness_one_transfer false 0x85 (by decide)
/-- Without an RW pin and with one; nothing to write, and 20 bytes. -/
theorem witness_WriteRowCompletes : ∀ n ∈ [(0 : Byte), 20], ∀ rw,
    (answering rw (50 * 4 * (n.toNat + 2)) (n.toNat + 1) 5).cfg.initDone = true ∧
    Paced (50 * ((answering rw (50 * 4 * (n.toNat + 2)) (n.toNat + 1) 5).par.maxPolls + 2) * (n.toNat + 2))
      (answering rw (50 * 4 * (n.toNat + 2)) (n.toNat + 1) 5) ∧
    Answered true (n.toNat + 1) (answering rw (50 * 4 * (n.toNat + 2)) (n.toNat + 1) 5) ∧
    n.toNat ≤ (answering rw (50 * 4 * (n.toNat + 2)) (n.toNat + 1) 5).par.bufSize :=
  fun n _ rw => ⟨rfl, answering_paced rw _ _ _, answering_answered rw _ _ _, Nat.le_of_lt n.isLt⟩
/-- A row of 16 from AC = 5 holds 11 of 20 bytes. -/
theorem witness_WriteRowCompletes_cap : rowCount (base true).par ⟨true, true, false, 16, true⟩ 20 5 = 11 ∧
    (base true).par.rowOffset0 = 0x00 ∧ (base true).par.rowOffset1 = 0x40 := by decide
theorem witness_ReadCompletes : (answering true (50 * 4) 1 5).par.hasRw = true ∧
    CanTransfer (answering true (50 * 4) 1 5) :=
  ⟨rfl, witness_one_transfer true 5 (by decide)⟩
/-- No byte, and the most there can be. -/
theorem witness_ReadRowCompletes : ∀ n ∈ [(0 : Byte), 255],
    (answering true (50 * 4 * (n.toNat + 2)) n.toNat 5).cfg.initDone = true ∧
    (answering true (50 * 4 * (n.toNat + 2)) n.toNat 5).par.hasRw = true ∧
    (answering true (50 * 4 * (n.toNat + 2)) n.toNat 5).port.rbuf.wf = true ∧
    Paced (50 * ((answering true (50 * 4 * (n.toNat + 2)) n.toNat 5).par.maxPolls + 2) * (n.toNat + 2))
      (answering true (50 * 4 * (n.toNat + 2)) n.toNat 5) ∧
    Answered true n.toNat (answering true (50 * 4 * (n.toNat + 2)) n.toNat 5) ∧
    n.toNat ≤ (answering true (50 * 4 * (n.toNat + 2)) n.toNat 5).par.bufSize :=
  fun n _ => ⟨rfl, rfl, rfl, answering_paced true _ _ _, answering_answered true _ _ _, Nat.le_of_lt n.isLt⟩
theorem witness_IsBusyCompletes : Paced 60 (paced true 60 [0x85]) ∧ (paced true 60 [0x85]).cfg.initDone = true ∧
    (paced true 60 [0x85]).par.hasRw = true ∧
    1 ≤ (answers (paced true 60 [0x85]).cfg.dl (paced true 60 [0x85]).env.pins).length :=
  ⟨paced_spec true 60 _, rfl, rfl, by decide⟩
theorem witness_GetSettingsIsLocal : (accepted (ready false)).cfg.initDone = true ∧ (accepted (ready false)).inputs = [] ∧
    (accepted (ready false)).port.opbusy = true := ⟨rfl, rfl, rfl⟩
/-- A controller that stays busy for the two polls it is given. -/
theorem witness_ControllerTimeoutNotFatal : (answering true (50 * 4) 1 0xC2).cfg.initDone = true ∧
    1 ≤ (answering true (50 * 4) 1 0xC2).par.maxPolls ∧ (answering true (50 * 4) 1 0xC2).par.hasRw = true ∧
    Paced (50 * ((answering true (50 * 4) 1 0xC2).par.maxPolls + 2)) (answering true (50 * 4) 1 0xC2) ∧
    ControllerBusy (answering true (50 * 4) 1 0xC2).cfg.dl 2 (answering true (50 * 4) 1 0xC2) :=
  ⟨rfl, by decide, rfl, answering_paced true _ _ _, by decide, by decide⟩

end Sys2Proof.Tests
end

section
/-! What every step without RST does to the counter and the log (spec/00_scope.md R14; spec/10_state.md R22, R39), from what
each meaning and each job does to them. -/

namespace Sys2Proof.Machine

/-! ### What an instruction's meaning does -/

/-- What a meaning answers, if it is a next state, has the property. -/
def Yields (P : State → Prop) : Answer → Prop
  | .next t => P t
  | .fault _ | .refused _ => True

theorem Yields.of_next {P : State → Prop} {o : Answer} {t : State} (h : Yields P o) (ho : o = .next t) : P t := by
  subst ho; exact h

theorem Yields.mono {P Q : State → Prop} {o : Answer} (h : Yields P o) (hPQ : ∀ t, P t → Q t) : Yields Q o := by
  cases o with
  | next t => exact hPQ t h
  | fault | refused => trivial

/-- What an instruction's meaning leaves unchanged in the step that runs it: only the position, the configuration, TOFLAG, the
working registers and the count of free values are written, since every primitive is a job of its own (assumption log 19). -/
structure StartsQuietly (s t : State) : Prop where
  par : t.par = s.par
  port : t.port = s.port
  cnt : t.cnt = s.cnt
  sns : t.sns = s.sns
  lcd : t.lcd = s.lcd
  set : t.set = s.set
  ac : t.ac = s.ac
  obs : t.obs = s.obs
  inputs : t.inputs = s.inputs
  env : t.env = s.env

theorem startsQuietly_update (s : State) (cfg : LcdConfig) (toflag : Bool) (phase : Phase) (work : Work) (todo : List Job)
    (draws : Nat) :
    StartsQuietly s { s with
      cfg := cfg, toflag := toflag, phase := phase, work := work, todo := todo, draws := draws } :=
  ⟨rfl, rfl, rfl, rfl, rfl, rfl, rfl, rfl, rfl, rfl⟩

theorem startsQuietly_lcdJobs (js : List Job) (s : State) : StartsQuietly s (lcdJobs js s) :=
  startsQuietly_update ..

theorem startsQuietly_push (js : List Job) (s : State) : StartsQuietly s (push js s) :=
  startsQuietly_update ..

theorem startsQuietly_needsRw {body : State → State} (hbody : ∀ s, StartsQuietly s (body s)) (s : State) :
    StartsQuietly s (needsRw body s) := by
  unfold needsRw
  split
  · exact hbody s
  · exact startsQuietly_lcdJobs _ s

/-- An LCD operation writes TOFLAG first, and then its body or the failed check follows (R136, R138). -/
theorem yields_lcdPrologue {body : State → State} (hbody : ∀ s, StartsQuietly s (body s)) (s : State) :
    Yields (StartsQuietly s) (lcdPrologue body s) := by
  unfold lcdPrologue
  split
  · obtain ⟨h1, h2, h3, h4, h5, h6, h7, h8, h9, h10⟩ := hbody (clearToflag s)
    exact ⟨h1, h2, h3, h4, h5, h6, h7, h8, h9, h10⟩
  · exact startsQuietly_update ..

theorem yields_issueRead (rs : Bool) (after : List Job) (s : State) :
    Yields (StartsQuietly s) (issueRead rs after s) := by
  unfold issueRead
  split
  · exact startsQuietly_push _ s
  · exact startsQuietly_update ..

theorem yields_exec (i : Instr) (s : State) : Yields (StartsQuietly s) (exec i s) := by
  cases i with
  | tmrElapsed | tmrResetWait | snsRead => exact startsQuietly_update ..
  | lcdInit cols f n dl =>
    change Yields _ (execLcdInit cols f n dl s)
    unfold execLcdInit
    split <;> exact startsQuietly_update ..
  | lcdSetAddress addr =>
    change Yields _ (execLcdSetAddress addr s)
    unfold execLcdSetAddress
    split
    · exact startsQuietly_lcdJobs _ s
    · exact yields_lcdPrologue (startsQuietly_lcdJobs _) s
  | lcdSetCursor row col =>
    change Yields _ (execLcdSetCursor row col s)
    refine yields_lcdPrologue (fun s => ?_) s
    split <;> exact startsQuietly_lcdJobs _ s
  | lcdWriteRow n => exact yields_lcdPrologue (fun s => startsQuietly_lcdJobs _ s) s
  | lcdSetDisplay | lcdClear | lcdHome | lcdWrite | lcdGetSettings =>
    exact yields_lcdPrologue (startsQuietly_lcdJobs _) s
  | lcdRead | lcdIsBusy => exact yields_lcdPrologue (startsQuietly_needsRw (startsQuietly_lcdJobs _)) s
  | lcdReadRow n =>
    change Yields _ (execLcdReadRow n s)
    exact yields_lcdPrologue
      (startsQuietly_needsRw fun s => startsQuietly_update ..) s
  | busClearDisplay | busReturnHome | busEntryModeSet | busDisplayControl | busFunctionSet | busNib3 | busNib2
  | busSetDdramAddress | busDataWrite => exact startsQuietly_push _ s
  | busBusyRead | busDataRead => exact yields_issueRead _ _ s

/-! ### What a job does -/

/-- CNT is kept, and the log is kept or gains one event at its end (R14, R39). -/
def OneEvent (s t : State) : Prop :=
  t.cnt = s.cnt ∧ (t.obs.log = s.obs.log ∨ ∃ ev, t.obs.log = s.obs.log ++ [ev])

theorem OneEvent.silent {s t : State} (hc : t.cnt = s.cnt) (hl : t.obs.log = s.obs.log) : OneEvent s t := ⟨hc, .inl hl⟩

theorem OneEvent.event {s t : State} {ev : Event} (hc : t.cnt = s.cnt) (hl : t.obs.log = s.obs.log ++ [ev]) :
    OneEvent s t := ⟨hc, .inr ⟨ev, hl⟩⟩

/-- A sample of the line is one event, whatever jobs are put back after it. -/
theorem oneEvent_push_snsRead (js : List Job) (s : State) : OneEvent s (push js (snsRead s).2) := by
  obtain ⟨v, env, d, h, -⟩ := snsRead_spec s
  rw [h]
  exact .event rfl rfl

theorem oneEvent_runAwaitLevel (level : Bool) (limit : Word) (s : State) : OneEvent s (runAwaitLevel level limit s) := by
  unfold runAwaitLevel
  split
  · exact oneEvent_push_snsRead [] s
  · exact oneEvent_push_snsRead _ s

theorem oneEvent_runPulse (level : Bool) (limit : Option Word) (dst : PulseTo) (s : State) :
    OneEvent s (runPulse level limit dst s) := by
  unfold runPulse
  split
  · cases limit <;> exact oneEvent_push_snsRead _ s
  · exact oneEvent_push_snsRead _ s

theorem oneEvent_runPulseEnd (limit : Option Word) (dst : PulseTo) (s : State) :
    OneEvent s (runPulseEnd limit dst s) := by
  unfold runPulseEnd
  split
  · exact .event rfl rfl
  · cases dst <;> exact .event rfl rfl

theorem oneEvent_runSample (lane : Lane) (s : State) : OneEvent s (runSample lane s) := by
  unfold runSample
  rcases drawPins_cases s with ⟨v, rest, -, h⟩ | ⟨-, h⟩ <;> rw [h] <;> exact .event rfl rfl

theorem oneEvent_runRaise (st : Status) (s : State) : OneEvent s (runRaise st s) := by
  obtain ⟨v, w, f, d, h⟩ := runRaise_spec st s
  rw [h]
  exact .silent rfl rfl

/-- Every job but CntReset() keeps CNT and appends at most one event: it is one primitive of R14 or a silent decision. -/
theorem oneEvent_runJob {j : Job} (hj : j ≠ .cntReset) (s : State) : OneEvent s (runJob j s) := by
  cases j with
  | cntReset => exact absurd rfl hj
  | delayMs | timerRead | snsConfig | snsDrive | snapT0 | setRS | setRW | setDDir | setE | drive => exact .event rfl rfl
  | spin n => simp only [runJob, runSpin]; split <;> exact .event rfl rfl
  | timerWait n => simp only [runJob, runTimerWait]; split <;> exact .event rfl rfl
  | awaitLevel level limit => exact oneEvent_runAwaitLevel level limit s
  | awaitCheck level limit => simp only [runJob, runAwaitCheck]; split <;> exact .event rfl rfl
  | pulse level limit dst => exact oneEvent_runPulse level limit dst s
  | pulseCheck level limit dst => simp only [runJob, runPulseCheck]; split <;> exact .event rfl rfl
  | pulseEnd limit dst => exact oneEvent_runPulseEnd limit dst s
  | sample lane => exact oneEvent_runSample lane s
  | bits => simp only [runJob, runBits]; split <;> exact .silent rfl rfl
  | validate => simp only [runJob, runValidate]; split <;> exact .silent rfl rfl
  | waitReady long => simp only [runJob, runWaitReady]; split <;> exact .silent rfl rfl
  | pollTest => simp only [runJob, runPollTest]; split_ifs <;> exact .silent rfl rfl
  | writeNext i => simp only [runJob, runWriteNext]; split <;> exact .silent rfl rfl
  | readNext i => simp only [runJob, runReadNext]; split <;> exact .silent rfl rfl
  | raise st => exact oneEvent_runRaise st s
  | timerEnd | enter | nextBit | assemble | transfer | setAc | incAc | acFromRead | poll | initEnd | setSettings
  | rowCap | storeRead | readEnd | busyEnd | settingsEnd | lcdEnd => exact .silent rfl rfl

/-! ### What a step does -/

/-- What a step without RST makes of the state after the timer's move: at most one event with CNT kept, or CntReset(). -/
def KeepsCount (a t : State) : Prop := OneEvent a t ∨ (t.cnt = 0 ∧ t.obs.log = a.obs.log ++ [.treset])

theorem keepsCount_of_startsQuietly {a b t : State} (hc : b.cnt = a.cnt) (ho : b.obs = a.obs) (h : StartsQuietly b t) :
    KeepsCount a t := .inl (.silent (h.cnt.trans hc) (by rw [h.obs, ho]))

theorem keepsCount_runJob (j : Job) (js : List Job) (a : State) : KeepsCount a (runJob j (takeJob js a)) := by
  by_cases hj : j = .cntReset
  · subst hj
    exact .inr ⟨rfl, rfl⟩
  · exact .inl (oneEvent_runJob hj (takeJob js a))

/-- What a step answers, given what it fetched. -/
def Fetched.answer : Fetched → Answer
  | .instr i t => exec i t
  | .took o => o

theorem step_eq_answer (s : State) : step s = (fetch s).answer := by
  unfold step
  cases fetch s <;> rfl

theorem yields_jobStep (j : Job) (js : List Job) (a : State) : Yields (KeepsCount a) (jobStep j js a) := by
  unfold jobStep
  split
  · trivial
  · exact keepsCount_runJob j js a

theorem yields_fetchJob (a : State) : Yields (KeepsCount a) (fetchJob a).answer := by
  unfold fetchJob
  split
  · split
    · exact .inl (.silent rfl rfl)
    · split
      · exact (yields_exec _ _).mono fun _ => keepsCount_of_startsQuietly rfl rfl
      · trivial
    · exact yields_jobStep _ _ a
  · exact .inl (.silent rfl rfl)

theorem yields_fetchCmd (w : Word) (a : State) : Yields (KeepsCount a) (fetchCmd w a).answer := by
  unfold fetchCmd
  split
  · exact (yields_exec _ _).mono fun _ => keepsCount_of_startsQuietly rfl rfl
  · exact .inl (.silent rfl rfl)

theorem yields_writeArg (v : Word) (a : State) : Yields (KeepsCount a) (Fetched.took (.next (writeArg v a))).answer :=
  .inl (.silent rfl rfl)

theorem yields_fetchWbuf (i : Nat) (v : Byte) (a : State) : Yields (KeepsCount a) (fetchWbuf i v a).answer := by
  unfold fetchWbuf
  split
  · exact .inl (.silent rfl rfl)
  · trivial

theorem yields_hostWrite {P : State → Prop} {f : Fetched} (h : Yields P f.answer) (s : State) :
    Yields P (hostWrite s f).answer := by
  unfold hostWrite
  split
  · trivial
  · exact h

theorem yields_fetchInput {a : State} (hr : a.inputs.head? ≠ some .rst) : Yields (KeepsCount a) (fetchInput a).answer := by
  unfold fetchInput
  split
  case h_1 => exact yields_fetchJob a
  case h_2 rest _ => exact yields_fetchJob { a with inputs := rest }
  case h_3 w rest _ => exact yields_hostWrite (yields_fetchCmd w { a with inputs := rest }) a
  case h_4 v rest _ => exact yields_hostWrite (yields_writeArg v { a with inputs := rest }) a
  case h_5 i v rest _ => exact yields_hostWrite (yields_fetchWbuf i v { a with inputs := rest }) a
  case h_6 h => simp [h] at hr

/-- Every step but RST keeps the count that the timer's move has made, with at most one event, or is a CntReset(). -/
theorem step_keepsCount {s t : State} (h : step s = .next t) (hr : s.inputs.head? ≠ some .rst) :
    KeepsCount (advanceTimer s) t :=
  (yields_fetchInput (a := advanceTimer s) (by rwa [advanceTimer_inputs])).of_next ((step_eq_answer s).symm.trans h)

/-- Settles O13, from what every job and every meaning does to CNT (`step_keepsCount`). -/
theorem cntWriters : Obligations.CntWriters := by
  intro s t h hr
  rcases step_keepsCount h hr with ⟨hc, -⟩ | ⟨hc, hl⟩
  · exact .inl hc
  · exact .inr ⟨hc, by rw [hl, advanceTimer_obs]⟩

/-- Settles O15, from what every job and every meaning does to the log (`step_keepsCount`). -/
theorem logGrowsByOneEvent : Obligations.LogGrowsByOneEvent := by
  intro s t h hr
  rw [← advanceTimer_obs s]
  rcases step_keepsCount h hr with ⟨-, hl⟩ | ⟨-, hl⟩
  · exact hl
  · exact .inr ⟨.treset, hl⟩

end Sys2Proof.Machine
end

section
/-! How a run with a scripted timer and a scripted line goes on, and the timer's two operations. -/

namespace Sys2Proof.Machine

/-! ### One step, whatever the timer draws -/

/-- With no action of the host, a step runs the next job after the timer's move. -/
theorem step_job_advance {s : State} {j : Job} {js : List Job} (hi : s.inputs = []) (hb : s.port.opbusy = true)
    (ht : s.todo = j :: js) (hj : ∀ w, j ≠ .transfer w) (ho : outsideBuffer s j = false) :
    step s = .next (runJob j (takeJob js (advanceTimer s))) := by
  have ho' : outsideBuffer (advanceTimer s) j = false :=
    (outsideBuffer_congr (advanceTimer_par s) (advanceTimer_work s) j).trans ho
  rw [step_eq_answer, fetch, fetchInput, advanceTimer_inputs, hi]
  change (fetchJob (advanceTimer s)).answer = _
  rw [fetchJob_cons (by rwa [advanceTimer_port]) (by rwa [advanceTimer_todo]) hj]
  exact jobStep_next js ho'

@[simp] theorem advanceTimer_line (s : State) : (advanceTimer s).env.line = s.env.line := by
  obtain ⟨k, env, d, h, hline, -⟩ := advanceTimer_spec s
  rw [h, ← hline]

/-! ### Counts -/

theorem later_toNat (par : Params) (c : Word) (k : Nat) : (later par c k).toNat = (c.toNat + k) % cntSpan par := by
  rw [later, wrapCnt_add_toNat, BitVec.toNat_ofNat, Nat.add_mod, Nat.mod_mod_of_dvd _ (cntSpan_dvd par), ← Nat.add_mod]

theorem later_later (par : Params) (c : Word) (a b : Nat) : later par (later par c a) b = later par c (a + b) :=
  BitVec.eq_of_toNat_eq (by rw [later_toNat, later_toNat, later_toNat, Nat.mod_add_mod, Nat.add_assoc])

theorem later_zero_ticks {par : Params} {c : Word} (h : c.toNat < cntSpan par) : later par c 0 = c :=
  BitVec.eq_of_toNat_eq (by rw [later_toNat, Nat.add_zero, Nat.mod_eq_of_lt h])

theorem later_toNat_lt (par : Params) (c : Word) (k : Nat) : (later par c k).toNat < cntSpan par := by
  rw [later_toNat]
  exact Nat.mod_lt _ (cntSpan_pos par)

/-- From 0 a count that CNT can hold is the number of ticks. -/
theorem later_from_zero {par : Params} {k : Nat} (h : k < cntSpan par) : later par 0 k = BitVec.ofNat 32 k := by
  have hs := cntSpan_le par
  refine BitVec.eq_of_toNat_eq ?_
  rw [later_toNat, BitVec.toNat_ofNat, Nat.mod_eq_of_lt (by omega : k < 2 ^ 32)]
  simpa using Nat.mod_eq_of_lt h

/-- The elapsed value between a count and the count some ticks later is those ticks, modulo CNT's span (R84). -/
theorem elapsed_later_toNat (par : Params) (c : Word) (n : Nat) :
    (elapsed par (later par c n) c).toNat = n % cntSpan par := by
  obtain ⟨m, hm⟩ := cntSpan_dvd par
  have hc := c.isLt
  rw [elapsed, wrapCnt_toNat, BitVec.toNat_sub, Nat.mod_mod_of_dvd _ (cntSpan_dvd par), later_toNat, Nat.add_mod_mod,
    show 2 ^ 32 - c.toNat + (c.toNat + n) = n + cntSpan par * m by omega, Nat.add_mul_mod_self_left]

theorem reached_eq_true {now n : Word} (h : n.toNat ≤ now.toNat) : reached now n = true := decide_eq_true h

theorem reached_eq_false {now n : Word} (h : now.toNat < n.toNat) : reached now n = false :=
  decide_eq_false (Nat.not_le_of_lt h)

/-! ### Scripted runs -/

/-- What a scripted run changes of a state besides PHASE, the log and the scripts: the jobs ahead, CNT, the sensor pin and the
working registers. -/
structure Spot where
  todo : List Job
  cnt : Word
  sns : SnsPin
  work : Work

/-- The state at a spot, with this phase and log, and these draws to come. -/
def State.atSpot (s : State) (p : Spot) (ph : Phase) (log : List Event) (ticks : List Nat) (line : List Bool) : State :=
  { s with
    todo := p.todo, cnt := p.cnt, sns := p.sns, work := p.work, phase := ph, obs.log := log, env.ticks := ticks
    env.line := line }

/-- In an operation that the host leaves alone, with these timer's draws, one for each step, and these answers of the sensor, the
run goes from one spot to another and appends these events, whatever draws are to come after them. -/
def Leads (s : State) (p : Spot) (draws : List Nat) (line : List Bool) (evs : List Event) (q : Spot) : Prop :=
  s.inputs = [] → s.port.opbusy = true → ∀ ph log ticks lines, ∃ ph',
    runs draws.length (s.atSpot p ph log (draws ++ ticks) (line ++ lines)) = .next (s.atSpot q ph' (log ++ evs) ticks lines)

theorem Leads.refl (s : State) (p : Spot) : Leads s p [] [] [] p := by
  intro _ _ ph log ticks lines
  exact ⟨ph, by rw [List.append_nil]; rfl⟩

theorem Leads.trans {s : State} {p q r : Spot} {draws draws' : List Nat} {line line' : List Bool}
    {evs evs' : List Event} (h : Leads s p draws line evs q) (h' : Leads s q draws' line' evs' r) :
    Leads s p (draws ++ draws') (line ++ line') (evs ++ evs') r := by
  intro hi hb ph log ticks lines
  obtain ⟨ph₁, h₁⟩ := h hi hb ph log (draws' ++ ticks) (line' ++ lines)
  obtain ⟨ph₂, h₂⟩ := h' hi hb ph₁ (log ++ evs) ticks lines
  refine ⟨ph₂, ?_⟩
  rw [List.append_assoc, List.append_assoc, List.length_append, runs_add h₁, h₂, List.append_assoc]

/-- A run with the scripts that the state itself holds. -/
theorem Leads.run {s : State} {p q : Spot} {draws ticks : List Nat} {line lines : List Bool} {evs : List Event}
    (h : Leads s p draws line evs q) (hi : s.inputs = []) (hb : s.port.opbusy = true) (ht : s.env.ticks = draws ++ ticks)
    (hl : s.env.line = line ++ lines) (ph : Phase) :
    ∃ ph', runs draws.length (s.atSpot p ph s.obs.log s.env.ticks s.env.line) =
      .next (s.atSpot q ph' (s.obs.log ++ evs) ticks lines) := by
  rw [ht, hl]
  exact h hi hb ph s.obs.log ticks lines

section

variable {s : State} {j : Job} {js : List Job} {c : Word} {k : Nat} {pin : SnsPin} {w : Work} {q : Spot}

/-- One job that appends `evs` and takes the answers `line` of the sensor. -/
theorem leads_job {line : List Bool} {evs : List Event} (hj : ∀ x, j ≠ .transfer x) (ho : ∀ u, outsideBuffer u j = false)
    (h : ∀ ph log ticks lines, ∃ ph', runJob j (s.atSpot ⟨js, later s.par c k, pin, w⟩ ph log ticks (line ++ lines)) =
      s.atSpot q ph' (log ++ evs) ticks lines) : Leads s ⟨j :: js, c, pin, w⟩ [k] line evs q := by
  intro hi hb ph log ticks lines
  obtain ⟨ph', h'⟩ := h ph.next log ticks lines
  refine ⟨ph', ?_⟩
  rw [List.length_singleton,
    runs_succ (step_job (s := s.atSpot ⟨j :: js, c, pin, w⟩ ph log ([k] ++ ticks) (line ++ lines)) hi hb rfl rfl hj (ho _)),
    runs_zero]
  exact congrArg _ h'

/-- One job that is no primitive appends nothing. -/
theorem leads_silent (hj : ∀ x, j ≠ .transfer x) (ho : ∀ u, outsideBuffer u j = false)
    (h : ∀ ph log ticks lines, ∃ ph', runJob j (s.atSpot ⟨js, later s.par c k, pin, w⟩ ph log ticks lines) =
      s.atSpot q ph' log ticks lines) : Leads s ⟨j :: js, c, pin, w⟩ [k] [] [] q :=
  leads_job hj ho fun ph log ticks lines => by rw [List.append_nil]; exact h ph log ticks lines

theorem leads_cntReset (s : State) (js : List Job) (c : Word) (k : Nat) (pin : SnsPin) (w : Work) :
    Leads s ⟨.cntReset :: js, c, pin, w⟩ [k] [] [.treset] ⟨js, 0, pin, w⟩ :=
  leads_job (fun x => by simp) (fun _ => rfl) fun ph _ _ _ => ⟨ph, rfl⟩

/-- A read of TMR.RESET_WAIT that finds less than `n` leaves the loop where it is (R87). -/
theorem leads_timerWait_below {n : Word} (h : (later s.par c k).toNat < n.toNat) :
    Leads s ⟨.timerWait n :: js, c, pin, w⟩ [k] [] [.tread (later s.par c k)]
      ⟨.timerWait n :: js, later s.par c k, pin, w⟩ :=
  leads_job (fun x => by simp) (fun _ => rfl) fun ph _ _ _ =>
    ⟨ph, (if_neg (ne_true_of_eq_false (reached_eq_false h))).trans rfl⟩

/-- A read of TMR.RESET_WAIT that finds at least `n` ends the loop with the value read (R87). -/
theorem leads_timerWait_done {n : Word} (h : n.toNat ≤ (later s.par c k).toNat) :
    Leads s ⟨.timerWait n :: js, c, pin, w⟩ [k] [] [.tread (later s.par c k)]
      ⟨.timerEnd (later s.par c k) :: js, later s.par c k, pin, w⟩ :=
  leads_job (fun x => by simp) (fun _ => rfl) fun ph _ _ _ =>
    ⟨ph, (if_pos (reached_eq_true h)).trans rfl⟩

/-- Reads that all find less than `n` leave a loop of reads where it is, CNT running on (R87). -/
theorem leads_reads {n : Word} (hloop : ∀ c k, (later s.par c k).toNat < n.toNat →
      Leads s ⟨j :: js, c, pin, w⟩ [k] [] [.tread (later s.par c k)] ⟨j :: js, later s.par c k, pin, w⟩)
    (ks : List Nat) (hc : c.toNat < cntSpan s.par) (hn : ks ≠ [] → c.toNat + ks.sum < n.toNat) :
    Leads s ⟨j :: js, c, pin, w⟩ ks [] (readsLog s.par c ks) ⟨j :: js, later s.par c ks.sum, pin, w⟩ := by
  induction ks generalizing c with
  | nil =>
    rw [List.sum_nil, later_zero_ticks hc]
    exact .refl s _
  | cons k ks ih =>
    have hsum : c.toNat + (k + ks.sum) < n.toNat := by simpa using hn (List.cons_ne_nil k ks)
    have hle : (later s.par c k).toNat ≤ c.toNat + k := by rw [later_toNat]; exact Nat.mod_le _ _
    have htail := ih (later_toNat_lt s.par c k) fun _ => by omega
    rw [later_later, ← List.sum_cons] at htail
    exact (hloop c k (by omega)).trans htail

end

/-! ### The timer's operations -/

/-- The last step of a timer operation (R86, R87). -/
theorem step_timerEnd {s : State} {v : Word} {js : List Job} (hi : s.inputs = []) (hb : s.port.opbusy = true)
    (ht : s.todo = .timerEnd v :: js) :
    step s = .next (conclude .ok v (takeJob js (advanceTimer s))) :=
  step_job_advance hi hb ht (fun x => by simp) rfl

/-- Settles O27: the read, then the end, each after a move of the timer. -/
theorem elapsedReadsCounter : Obligations.ElapsedReadsCounter := by
  refine ⟨by decide, fun s hi hb => ?_⟩
  let t := load .tmrWait [.timerRead] s
  let a := runTimerRead (takeJob [] (advanceTimer t))
  have hread : step t = .next a :=
    step_job_advance (s := t) (j := .timerRead) hi hb rfl (fun x => by simp) rfl
  have hend : step a = .next (conclude .ok a.cnt (takeJob [] (advanceTimer a))) :=
    step_timerEnd (by simp [a, t, runTimerRead, hi]) (by simp [a, t, runTimerRead, hb]) (by simp [a, t, runTimerRead])
  refine ⟨t, a, _, rfl, rfl, hread, hend, ⟨rfl, rfl, rfl, rfl, rfl, ?_⟩, ?_, rfl, rfl, ?_⟩
  · simp [a, t, runTimerRead, Port.result]
  · simp [a, t, runTimerRead]
  · simp [a, t, runTimerRead]

/-- The reads' log, told by the sums of the ticks before each read. -/
theorem readsLog_eq_map (par : Params) (c : Word) (ks : List Nat) :
    readsLog par c ks = (List.range ks.length).map fun i => .tread (later par c (ks.take (i + 1)).sum) := by
  induction ks generalizing c with
  | nil => rfl
  | cons k ks ih =>
    rw [readsLog, ih, List.length_cons, List.range_succ_eq_map, List.map_cons, List.map_map]
    simp [later_later, Function.comp_def]

/-- The reads of a wait from 0 on, none of which CNT wraps before, find the sums of the ticks. -/
theorem readsLog_from_zero {par : Params} {ks : List Nat} (h : ks.sum < cntSpan par) :
    readsLog par 0 ks = (List.range ks.length).map fun i => .tread (BitVec.ofNat 32 (ks.take (i + 1)).sum) := by
  rw [readsLog_eq_map]
  refine List.map_congr_left fun i _ => ?_
  have hle : (ks.take (i + 1)).sum ≤ ks.sum := (List.take_sublist ..).sum_le_sum fun _ _ => Nat.zero_le _
  rw [later_from_zero (Nat.lt_of_le_of_lt hle h)]

/-- TMR.RESET_WAIT up to its last read (R87): the reset, the reads below `n`, and the read that reaches it. -/
theorem leads_resetWait (s : State) {n c : Word} {pin : SnsPin} {w : Work} {k0 k : Nat} {ks : List Nat}
    (hks : ks.sum < n.toNat ∨ ks = []) (hk : n.toNat ≤ ks.sum + k) (hspan : ks.sum + k < cntSpan s.par) :
    Leads s ⟨[.cntReset, .timerWait n], c, pin, w⟩ ([k0] ++ ks ++ [k]) []
      ([.treset] ++ readsLog s.par 0 ks ++ [.tread (BitVec.ofNat 32 (ks.sum + k))])
      ⟨[.timerEnd (BitVec.ofNat 32 (ks.sum + k))], BitVec.ofNat 32 (ks.sum + k), pin, w⟩ := by
  have hlast : later s.par (later s.par 0 ks.sum) k = BitVec.ofNat 32 (ks.sum + k) := by
    rw [later_later, later_from_zero hspan]
  have hreads : Leads s ⟨[.timerWait n], 0, pin, w⟩ ks [] (readsLog s.par 0 ks)
      ⟨[.timerWait n], later s.par 0 ks.sum, pin, w⟩ :=
    leads_reads (fun _ _ => leads_timerWait_below) ks (cntSpan_pos _) fun hne => by
      simpa using hks.resolve_right hne
  have hdone : n.toNat ≤ (later s.par (later s.par 0 ks.sum) k).toNat := by
    rw [later_later, later_toNat]
    simpa [Nat.mod_eq_of_lt hspan] using hk
  have hend := leads_timerWait_done (js := []) (pin := pin) (w := w) hdone
  rw [hlast] at hend
  exact ((leads_cntReset s _ c k0 pin w).trans hreads).trans hend

/-- Settles O28: the reset and the reads (`leads_resetWait`), then the end. -/
theorem resetWaitWaits : Obligations.ResetWaitWaits := by
  intro s k0 k k' ks rest hi hb hticks hks hk hspan
  refine ⟨_, rfl, rfl, ?_⟩
  obtain ⟨ph, hrun⟩ := (leads_resetWait s (c := s.cnt) (pin := s.sns) (w := s.work) (k0 := k0) hks hk hspan).run hi hb
    (ticks := k' :: rest) (by simp [hticks]) (List.nil_append _).symm .tmrWait
  let evs := [.treset] ++ readsLog s.par 0 ks ++ [.tread (BitVec.ofNat 32 (ks.sum + k))]
  let u := s.atSpot ⟨[.timerEnd (BitVec.ofNat 32 (ks.sum + k))], BitVec.ofNat 32 (ks.sum + k), s.sns, s.work⟩ ph
    (s.obs.log ++ evs) (k' :: rest) s.env.line
  have hend : step u = .next (conclude .ok (BitVec.ofNat 32 (ks.sum + k)) (ready k' rest [] u)) :=
    step_job (s := u) (j := .timerEnd (BitVec.ofNat 32 (ks.sum + k))) hi hb rfl rfl (fun x => by simp) rfl
  have hlen : ks.length + 3 = ([k0] ++ ks ++ [k]).length + 1 := by simp
  refine ⟨conclude .ok (BitVec.ofNat 32 (ks.sum + k)) (ready k' rest [] u), ?_, ⟨rfl, rfl, rfl, rfl, rfl, rfl⟩, rfl, ?_,
    ?_⟩
  · rw [hlen]
    exact (runs_add hrun 1).trans (runs_succ hend 0)
  · rw [← readsLog_from_zero (by omega : ks.sum < cntSpan s.par)]
    change s.obs.log ++ evs = _
    simp only [evs, List.append_assoc]
  · exact ⟨rfl, rfl, rfl, rfl, rfl, rfl, rfl, rfl, rfl, rfl, rfl, rfl⟩

end Sys2Proof.Machine
end

section
/-! The measuring loops (spec/40_timer.md R88, R89): each of their steps, and whole measurements on a scripted line. -/

namespace Sys2Proof.Machine

/-! ### What the measuring jobs do -/

theorem toNat_ofNat_of_lt_cntSpan {par : Params} {n : Nat} (h : n < cntSpan par) : (BitVec.ofNat 32 n).toNat = n := by
  rw [BitVec.toNat_ofNat, Nat.mod_eq_of_lt (Nat.lt_of_lt_of_le h (cntSpan_le par))]

/-- The elapsed value between two counts of one run is the ticks between them, if CNT does not come round (R84, R85). -/
theorem elapsed_later {par : Params} {c : Word} {a n : Nat} (h : n < cntSpan par) :
    elapsed par (later par c (a + n)) (later par c a) = BitVec.ofNat 32 n :=
  BitVec.eq_of_toNat_eq (by
    rw [← later_later, elapsed_later_toNat, Nat.mod_eq_of_lt h, toNat_ofNat_of_lt_cntSpan h])

/-- With the pin an input, a sample answers what the sensor drives (R25). -/
theorem snsRead_of_line {s : State} {v : Bool} {rest : List Bool} (hm : s.sns.mode = .inPu) (hl : s.env.line = v :: rest) :
    snsRead s = (v, emit (.snsSample v) { s with env.line := rest }) := by
  have hpin : ¬(s.sns.mode = .outOd ∧ s.sns.drv = false) := by simp [hm]
  simp only [snsRead, if_neg hpin, drawLevel, hl]

/-- The job that follows a sample of a measurement (R88, R89). -/
def afterSample (level v : Bool) (limit : Option Word) (dst : PulseTo) : Job :=
  if v = level then
    match limit with
    | none => .pulse level none dst
    | some l => .pulseCheck level l dst
  else .pulseEnd limit dst

theorem runPulse_of_line {s : State} {level v : Bool} {limit : Option Word} {dst : PulseTo} {rest : List Bool}
    (hm : s.sns.mode = .inPu) (hl : s.env.line = v :: rest) :
    runPulse level limit dst s =
      push [afterSample level v limit dst] (emit (.snsSample v) { s with env.line := rest }) := by
  simp only [runPulse, snsRead_of_line hm hl, afterSample]
  cases limit <;> split <;> rfl

@[simp] theorem afterSample_same_none (level : Bool) (dst : PulseTo) :
    afterSample level level none dst = .pulse level none dst := if_pos rfl

@[simp] theorem afterSample_same_some (level : Bool) (l : Word) (dst : PulseTo) :
    afterSample level level (some l) dst = .pulseCheck level l dst := if_pos rfl

@[simp] theorem afterSample_other (level : Bool) (limit : Option Word) (dst : PulseTo) :
    afterSample level (!level) limit dst = .pulseEnd limit dst := if_neg (by cases level <;> decide)

theorem runPulseCheck_past {s : State} {level : Bool} {limit : Word} {dst : PulseTo}
    (h : limit.toNat < (elapsed s.par s.cnt s.work.t0).toNat) :
    runPulseCheck level limit dst s = abort .ackTimeout (emit (.tread s.cnt) s) := if_pos (decide_eq_true h)

theorem runPulseCheck_within {s : State} {level : Bool} {limit : Word} {dst : PulseTo}
    (h : (elapsed s.par s.cnt s.work.t0).toNat ≤ limit.toNat) :
    runPulseCheck level limit dst s = push [.pulse level (some limit) dst] (emit (.tread s.cnt) s) :=
  if_neg (by simpa [pastLimit] using h)

/-- The working registers with a measured duration kept (R101, R102, R106). -/
def Work.keep (w : Work) (dst : PulseTo) (d : Word) : Work :=
  match dst with
  | .discard => w
  | .low => { w with low := storeAt w.low w.i d }
  | .high => { w with high := storeAt w.high w.i d }

theorem storePulse_eq (dst : PulseTo) (d : Word) (s : State) : storePulse dst d s = { s with work := s.work.keep dst d } := by
  cases dst <;> rfl

@[simp] theorem Work.keep_polls (w : Work) (dst : PulseTo) (d : Word) : (w.keep dst d).polls = w.polls := by cases dst <;> rfl

@[simp] theorem Work.keep_nXfer (w : Work) (dst : PulseTo) (d : Word) : (w.keep dst d).nXfer = w.nXfer := by cases dst <;> rfl

@[simp] theorem Work.keep_i (w : Work) (dst : PulseTo) (d : Word) : (w.keep dst d).i = w.i := by cases dst <;> rfl

theorem runPulseEnd_past {s : State} {l : Word} {dst : PulseTo} (h : l.toNat < (elapsed s.par s.cnt s.work.t0).toNat) :
    runPulseEnd (some l) dst s = abort .ackTimeout (emit (.tread s.cnt) s) := if_pos (decide_eq_true h)

theorem runPulseEnd_within {s : State} {limit : Option Word} {dst : PulseTo}
    (h : ∀ l, limit = some l → (elapsed s.par s.cnt s.work.t0).toNat ≤ l.toNat) :
    runPulseEnd limit dst s =
      { emit (.tread s.cnt) s with work := s.work.keep dst (elapsed s.par s.cnt s.work.t0) } := by
  have hpast : pastOptLimit (elapsed s.par s.cnt s.work.t0) limit = false := by
    cases limit with
    | none => rfl
    | some l => simpa [pastOptLimit, pastLimit] using h l rfl
  rw [runPulseEnd, hpast, storePulse_eq]
  rfl

/-- The read that ends a measurement, whatever it finds: one event, and the pin, the port, CNT and the LCD as before. -/
theorem runPulseEnd_frame (limit : Option Word) (dst : PulseTo) (s : State) :
    (runPulseEnd limit dst s).obs = (emit (.tread s.cnt) s).obs ∧ (runPulseEnd limit dst s).sns = s.sns ∧
      (runPulseEnd limit dst s).port = s.port ∧ (runPulseEnd limit dst s).cnt = s.cnt ∧
      SensorKeeps s (runPulseEnd limit dst s) := by
  unfold runPulseEnd
  split
  · exact ⟨rfl, rfl, rfl, rfl, by simp [SensorKeeps]⟩
  · rw [storePulse_eq]
    exact ⟨rfl, rfl, rfl, rfl, by simp [SensorKeeps]⟩

/-- A check of a bounded measurement, whatever it finds: one event, and nothing but the position is changed. -/
theorem runPulseCheck_frame (level : Bool) (limit : Word) (dst : PulseTo) (s : State) :
    (runPulseCheck level limit dst s).obs = (emit (.tread s.cnt) s).obs ∧ (runPulseCheck level limit dst s).sns = s.sns ∧
      (runPulseCheck level limit dst s).port = s.port ∧ (runPulseCheck level limit dst s).work = s.work ∧
      SensorKeeps s (runPulseCheck level limit dst s) := by
  unfold runPulseCheck
  split <;> exact ⟨rfl, rfl, rfl, rfl, by simp [SensorKeeps]⟩

/-! ### The end by an error -/

theorem sensorKeeps_advanceTimer (s : State) : SensorKeeps s (advanceTimer s) := by simp [SensorKeeps]

theorem SensorKeeps.trans {s t u : State} (h : SensorKeeps s t) (h' : SensorKeeps t u) : SensorKeeps s u := by
  simp only [SensorKeeps] at h h' ⊢
  obtain ⟨h1, h2, h3, h4, h5, h6, h7, h8, h9, h10, h11, h12, h13⟩ := h
  obtain ⟨k1, k2, k3, k4, k5, k6, k7, k8, k9, k10, k11, k12, k13⟩ := h'
  exact ⟨k1.trans h1, k2.trans h2, k3.trans h3, k4.trans h4, k5.trans h5, k6.trans h6, k7.trans h7, k8.trans h8,
    k9.trans h9, k10.trans h10, k11.trans h11, k12.trans h12, k13.trans h13⟩

/-- A job is taken after the timer's move: nothing of the LCD and of the port has changed. -/
theorem sensorKeeps_takeJob (js : List Job) (s : State) : SensorKeeps s (takeJob js (advanceTimer s)) :=
  sensorKeeps_advanceTimer s

/-- A scripted run keeps what SNS.READ keeps, if the working registers it ends with do. -/
theorem sensorKeeps_atSpot {s : State} {q : Spot} (hp : q.work.polls = s.work.polls) (hn : q.work.nXfer = s.work.nXfer)
    (ph : Phase) (log : List Event) (ticks : List Nat) (line : List Bool) : SensorKeeps s (s.atSpot q ph log ticks line) :=
  ⟨rfl, rfl, rfl, rfl, rfl, rfl, rfl, rfl, rfl, rfl, hp, hn, rfl⟩

/-- The step of a raise of an error of SNS.READ (R161): nothing but the sensor's working registers is forgotten. -/
theorem step_raise_of_sensor {s t : State} {st : Status} {js : List Job} (hst : ∀ a, forgetAfter st a = forgetSensor a)
    (hi : t.inputs = []) (hb : t.port.opbusy = true) (ht : t.todo = .raise st :: js) (hr : t.obs.results = s.obs.results)
    (hk : SensorKeeps s t) :
    ∃ u, step t = .next u ∧ RaisedError st s u ∧ u.obs.log = t.obs.log ∧ u.sns = t.sns ∧ SensorKeeps s u := by
  have hstep : step t = .next (raise st (forgetSensor (takeJob js (advanceTimer t)))) := by
    rw [step_job_advance hi hb ht (fun x => by simp) rfl, runJob, runRaise, hst]
  refine ⟨_, hstep, ⟨_, rfl, rfl, rfl, rfl, rfl, ?_⟩, ?_, ?_, ?_⟩
  · simp [hr, Port.result]
  · simp
  · simp
  · simpa [SensorKeeps] using hk

/-- The raise in the step after a deciding event: the operation's next job has appended `ev` and aborted (R161, R162). -/
theorem step_abort_of_sensor {s : State} {st : Status} (hst : ∀ a, forgetAfter st a = forgetSensor a)
    (hi : s.inputs = []) (hb : s.port.opbusy = true) (js : List Job) (ev : Event) :
    ∃ u, step (abort st (emit ev (takeJob js (advanceTimer s)))) = .next u ∧ RaisedError st s u ∧
      u.obs.log = (abort st (emit ev (takeJob js (advanceTimer s)))).obs.log ∧ u.sns = s.sns ∧ SensorKeeps s u := by
  have h := step_raise_of_sensor (s := s) (t := abort st (emit ev (takeJob js (advanceTimer s)))) hst (by simpa using hi)
    (by simpa using hb) rfl (by simp) (sensorKeeps_takeJob js s)
  rwa [abort_sns, emit_sns, takeJob_sns, advanceTimer_sns] at h

/-! ### The steps of a measurement -/

theorem step_pulse {s : State} {level v : Bool} {limit : Option Word} {dst : PulseTo} {js : List Job} {rest : List Bool}
    (hi : s.inputs = []) (hb : s.port.opbusy = true) (hm : s.sns.mode = .inPu)
    (ht : s.todo = .pulse level limit dst :: js) (hl : s.env.line = v :: rest) :
    step s = .next (push [afterSample level v limit dst]
      (emit (.snsSample v) { takeJob js (advanceTimer s) with env.line := rest })) := by
  rw [step_job_advance hi hb ht (fun x => by simp) rfl, runJob, runPulse_of_line (by simpa using hm) (by simpa using hl)]

theorem step_pulseCheck {s : State} {level : Bool} {limit : Word} {dst : PulseTo} {js : List Job} (hi : s.inputs = [])
    (hb : s.port.opbusy = true) (ht : s.todo = .pulseCheck level limit dst :: js) :
    step s = .next (runPulseCheck level limit dst (takeJob js (advanceTimer s))) :=
  step_job_advance hi hb ht (fun x => by simp) rfl

theorem step_pulseEnd {s : State} {limit : Option Word} {dst : PulseTo} {js : List Job} (hi : s.inputs = [])
    (hb : s.port.opbusy = true) (ht : s.todo = .pulseEnd limit dst :: js) :
    step s = .next (runPulseEnd limit dst (takeJob js (advanceTimer s))) :=
  step_job_advance hi hb ht (fun x => by simp) rfl

/-! ### Measurements on a scripted line -/

section

variable {s : State} {level : Bool} {limit : Option Word} {dst : PulseTo} {js : List Job} {c : Word} {k : Nat} {pin : SnsPin}
  {w : Work}

theorem leads_snapT0 (s : State) (js : List Job) (c : Word) (k : Nat) (pin : SnsPin) (w : Work) :
    Leads s ⟨.snapT0 :: js, c, pin, w⟩ [k] [] [.tread (later s.par c k)]
      ⟨js, later s.par c k, pin, { w with t0 := later s.par c k }⟩ :=
  leads_job (fun x => by simp) (fun _ => rfl) fun ph _ _ _ => ⟨ph, rfl⟩

theorem leads_pulse (v : Bool) (hm : pin.mode = .inPu) :
    Leads s ⟨.pulse level limit dst :: js, c, pin, w⟩ [k] [v] [.snsSample v]
      ⟨afterSample level v limit dst :: js, later s.par c k, pin, w⟩ :=
  leads_job (fun x => by simp) (fun _ => rfl) fun ph _ _ _ => ⟨ph, runPulse_of_line hm rfl⟩

theorem leads_pulseCheck_within {l : Word} (h : (elapsed s.par (later s.par c k) w.t0).toNat ≤ l.toNat) :
    Leads s ⟨.pulseCheck level l dst :: js, c, pin, w⟩ [k] [] [.tread (later s.par c k)]
      ⟨.pulse level (some l) dst :: js, later s.par c k, pin, w⟩ :=
  leads_job (fun x => by simp) (fun _ => rfl) fun ph _ _ _ => ⟨ph, runPulseCheck_within h⟩

theorem leads_pulseCheck_past {l c' : Word} (hc : later s.par c k = c') (h : l.toNat < (elapsed s.par c' w.t0).toNat) :
    Leads s ⟨.pulseCheck level l dst :: js, c, pin, w⟩ [k] [] [.tread c'] ⟨[.raise .ackTimeout], c', pin, w⟩ := by
  subst hc
  exact leads_job (fun x => by simp) (fun _ => rfl) fun ph _ _ _ => ⟨ph, runPulseCheck_past h⟩

theorem leads_pulseEnd_within {c' d : Word} (hc : later s.par c k = c') (hd : elapsed s.par c' w.t0 = d)
    (h : ∀ l, limit = some l → d.toNat ≤ l.toNat) :
    Leads s ⟨.pulseEnd limit dst :: js, c, pin, w⟩ [k] [] [.tread c'] ⟨js, c', pin, w.keep dst d⟩ := by
  subst hc hd
  exact leads_job (fun x => by simp) (fun _ => rfl) fun ph _ _ _ => ⟨ph, runPulseEnd_within h⟩

theorem leads_pulseEnd_past {l c' : Word} (hc : later s.par c k = c') (h : l.toNat < (elapsed s.par c' w.t0).toNat) :
    Leads s ⟨.pulseEnd (some l) dst :: js, c, pin, w⟩ [k] [] [.tread c'] ⟨[.raise .ackTimeout], c', pin, w⟩ := by
  subst hc
  exact leads_job (fun x => by simp) (fun _ => rfl) fun ph _ _ _ => ⟨ph, runPulseEnd_past h⟩

/-- A sample that leaves the loop where it is, and its check, which finds the limit kept, `n` ticks after the snapshot: one
round of a loop with a limit (R89, R90). -/
theorem leads_checkedRound {j check : Job} {v : Bool} {l : Word}
    (hsample : ∀ c k, Leads s ⟨j :: js, c, pin, w⟩ [k] [v] [.snsSample v] ⟨check :: js, later s.par c k, pin, w⟩)
    (hcheck : ∀ c k, (elapsed s.par (later s.par c k) w.t0).toNat ≤ l.toNat →
      Leads s ⟨check :: js, c, pin, w⟩ [k] [] [.tread (later s.par c k)] ⟨j :: js, later s.par c k, pin, w⟩)
    (n : Nat) (h : Nat × Nat) (hl : n + (h.1 + h.2) ≤ l.toNat) :
    Leads s ⟨j :: js, later s.par w.t0 n, pin, w⟩ (heldDraws true [h]) [v]
      (heldLog s.par true v (later s.par w.t0 n) [h]) ⟨j :: js, later s.par w.t0 (n + (h.1 + h.2)), pin, w⟩ := by
  have hwithin : (elapsed s.par (later s.par (later s.par (later s.par w.t0 n) h.1) h.2) w.t0).toNat ≤ l.toNat := by
    rw [later_later, later_later, elapsed_later_toNat]
    exact Nat.le_trans (Nat.mod_le _ _) hl
  have hround := (hsample (later s.par w.t0 n) h.1).trans (hcheck _ h.2 hwithin)
  simpa [heldDraws, heldLog, later_later, Nat.add_assoc] using hround

/-- A sample at the level and its check, if there is a limit, `n` ticks after the snapshot (R88, R89). -/
theorem leads_heldOnce (hm : pin.mode = .inPu) (n : Nat) (h : Nat × Nat)
    (hl : ∀ l, limit = some l → n + (h.1 + h.2) ≤ l.toNat) :
    Leads s ⟨.pulse level limit dst :: js, later s.par w.t0 n, pin, w⟩ (heldDraws limit.isSome [h]) [level]
      (heldLog s.par limit.isSome level (later s.par w.t0 n) [h])
      ⟨.pulse level limit dst :: js, later s.par w.t0 (n + (h.1 + h.2)), pin, w⟩ := by
  cases limit with
  | none =>
    have hsample := leads_pulse (s := s) (level := level) (limit := none) (dst := dst) (js := js) (w := w)
      (c := later s.par w.t0 n) (k := h.1 + h.2) level hm
    simpa [heldDraws, heldLog, later_later] using hsample
  | some l =>
    refine leads_checkedRound (check := .pulseCheck level l dst) (fun c k => ?_)
      (fun _ _ => leads_pulseCheck_within) n h (hl l rfl)
    rw [← afterSample_same_some]
    exact leads_pulse level hm

theorem heldTicks_cons (h : Nat × Nat) (hs : List (Nat × Nat)) : heldTicks (h :: hs) = h.1 + h.2 + heldTicks hs := by
  simp [heldTicks]

/-- Any number of rounds of a loop, if each round that keeps the limit leaves the loop where it is (R88 to R90). -/
theorem leads_rounds {j : Job} {v checked : Bool}
    (hround : ∀ n h, (∀ l, limit = some l → n + (h.1 + h.2) ≤ l.toNat) →
      Leads s ⟨j :: js, later s.par w.t0 n, pin, w⟩ (heldDraws checked [h]) [v]
        (heldLog s.par checked v (later s.par w.t0 n) [h]) ⟨j :: js, later s.par w.t0 (n + (h.1 + h.2)), pin, w⟩)
    (held : List (Nat × Nat)) (n : Nat) (hl : ∀ l, limit = some l → n + heldTicks held ≤ l.toNat) :
    Leads s ⟨j :: js, later s.par w.t0 n, pin, w⟩ (heldDraws checked held) (List.replicate held.length v)
      (heldLog s.par checked v (later s.par w.t0 n) held) ⟨j :: js, later s.par w.t0 (n + heldTicks held), pin, w⟩ := by
  induction held generalizing n with
  | nil => exact .refl s _
  | cons h hs ih =>
    simp only [heldTicks_cons] at hl ⊢
    have hfirst := hround n h fun l hlim => by have := hl l hlim; omega
    have hrest := ih (n + (h.1 + h.2)) fun l hlim => by have := hl l hlim; omega
    simpa [heldDraws, heldLog, later_later, Nat.add_assoc, List.replicate_succ] using hfirst.trans hrest

/-- A measurement up to the last of its samples at the level. -/
theorem leads_measure_held (hm : pin.mode = .inPu) (c : Word) (snap : Nat) (held : List (Nat × Nat))
    (hl : ∀ l, limit = some l → heldTicks held ≤ l.toNat) :
    Leads s ⟨measurePulse level limit dst ++ js, c, pin, w⟩ (snap :: heldDraws limit.isSome held)
      (List.replicate held.length level)
      ([.tread (later s.par c snap)] ++ heldLog s.par limit.isSome level (later s.par c snap) held)
      ⟨.pulse level limit dst :: js, later s.par c (snap + heldTicks held), pin, { w with t0 := later s.par c snap }⟩ := by
  have hheld := leads_rounds (s := s) (js := js) (pin := pin) (w := { w with t0 := later s.par c snap })
    (leads_heldOnce (level := level) (limit := limit) (dst := dst) hm) held 0 (by simpa using hl)
  simp only [later_later, Nat.add_zero, Nat.zero_add] at hheld
  exact (leads_snapT0 s (.pulse level limit dst :: js) c snap pin w).trans hheld

/-- A measurement up to its sample at the other level. -/
theorem leads_measure_sampled (hm : pin.mode = .inPu) (c : Word) (p : Pulse)
    (hl : ∀ l, limit = some l → heldTicks p.held ≤ l.toNat) :
    Leads s ⟨measurePulse level limit dst ++ js, c, pin, w⟩ (p.snap :: (heldDraws limit.isSome p.held ++ [p.last]))
      (p.line level)
      ([.tread (later s.par c p.snap)] ++ heldLog s.par limit.isSome level (later s.par c p.snap) p.held ++
        [.snsSample (!level)])
      ⟨.pulseEnd limit dst :: js, later s.par c (p.snap + heldTicks p.held + p.last), pin,
        { w with t0 := later s.par c p.snap }⟩ := by
  have hheld := leads_measure_held (s := s) (level := level) (dst := dst) (js := js) (w := w) hm c p.snap p.held hl
  have hother := hheld.trans (leads_pulse (k := p.last) (!level) hm)
  rwa [later_later, afterSample_other] at hother

theorem heldTicks_le_span (p : Pulse) : heldTicks p.held ≤ p.span := by
  simp only [Pulse.span]
  omega

/-- CNT at the last read of a measurement. -/
theorem later_span (par : Params) (c : Word) (p : Pulse) :
    later par (later par c (p.snap + heldTicks p.held + p.last)) p.done = later par c (p.snap + p.span) := by
  rw [later_later]
  simp only [Pulse.span, Nat.add_assoc]

theorem Pulse.draws_eq (checked : Bool) (p : Pulse) :
    p.draws checked = p.snap :: (heldDraws checked p.held ++ [p.last]) ++ [p.done] := by simp [Pulse.draws]

theorem Pulse.log_eq (par : Params) (checked level : Bool) (c : Word) (p : Pulse) :
    p.log par checked level c =
      [.tread (later par c p.snap)] ++ heldLog par checked level (later par c p.snap) p.held ++ [.snsSample (!level)] ++
        [.tread (later par c (p.snap + p.span))] := by simp [Pulse.log]

/-- A measurement whose duration keeps its limit runs to its end, and the duration is kept (R88, R89, R106). -/
theorem leads_measure (hm : pin.mode = .inPu) (c : Word) {p : Pulse} (hp : p.Fits s.par limit) :
    Leads s ⟨measurePulse level limit dst ++ js, c, pin, w⟩ (p.draws limit.isSome) (p.line level)
      (p.log s.par limit.isSome level c)
      ⟨js, later s.par c (p.snap + p.span), pin,
        ({ w with t0 := later s.par c p.snap } : Work).keep dst (BitVec.ofNat 32 p.span)⟩ := by
  obtain ⟨hspan, hlimit⟩ := hp
  have hsampled := leads_measure_sampled (s := s) (level := level) (dst := dst) (js := js) (w := w) hm c p
    fun l hl => Nat.le_trans (heldTicks_le_span p) (hlimit l hl)
  have hend := hsampled.trans (leads_pulseEnd_within (later_span s.par c p) (elapsed_later hspan) fun l hl => by
    rw [toNat_ofNat_of_lt_cntSpan hspan]
    exact hlimit l hl)
  rwa [← Pulse.draws_eq, ← Pulse.log_eq, List.append_nil] at hend

/-- A measurement that is too long ends with its last read, and the raise comes next (R89, R162). -/
theorem leads_measure_pastEnd {l : Word} (hm : pin.mode = .inPu) (c : Word) {p : Pulse} (hheld : heldTicks p.held ≤ l.toNat)
    (hl : l.toNat < p.span) (hspan : p.span < cntSpan s.par) :
    Leads s ⟨measurePulse level (some l) dst ++ js, c, pin, w⟩ (p.draws true) (p.line level) (p.log s.par true level c)
      ⟨[.raise .ackTimeout], later s.par c (p.snap + p.span), pin, { w with t0 := later s.par c p.snap }⟩ := by
  have hsampled := leads_measure_sampled (s := s) (level := level) (limit := some l) (dst := dst) (js := js) (w := w) hm c p
    fun l' hl' => by cases hl'; exact hheld
  have hend := hsampled.trans (leads_pulseEnd_past (l := l) (later_span s.par c p) (by
    rwa [elapsed_later hspan, toNat_ofNat_of_lt_cntSpan hspan]))
  rwa [Option.isSome_some, ← Pulse.draws_eq, ← Pulse.log_eq, List.append_nil] at hend

theorem heldLog_append (par : Params) (checked level : Bool) {c : Word} (hc : c.toNat < cntSpan par)
    (as bs : List (Nat × Nat)) :
    heldLog par checked level c (as ++ bs) =
      heldLog par checked level c as ++ heldLog par checked level (later par c (heldTicks as)) bs := by
  induction as generalizing c with
  | nil => rw [show heldTicks [] = 0 from rfl, later_zero_ticks hc]; rfl
  | cons a as ih =>
    rw [heldTicks_cons, ← later_later, List.cons_append, heldLog, heldLog, ih (later_toNat_lt ..)]
    simp only [List.append_assoc]

/-- A measurement that is too long ends with the first check that finds it, the line still being at the level, and the raise
comes next (R89, R162). `p.last` and `p.done` are the ticks before the last sample and before its check. -/
theorem leads_measure_pastCheck {l : Word} (hm : pin.mode = .inPu) (c : Word) {p : Pulse}
    (hheld : heldTicks p.held ≤ l.toNat) (hl : l.toNat < p.span) (hspan : p.span < cntSpan s.par) :
    Leads s ⟨measurePulse level (some l) dst ++ js, c, pin, w⟩ (p.snap :: heldDraws true (p.held ++ [(p.last, p.done)]))
      (List.replicate (p.held.length + 1) level)
      ([.tread (later s.par c p.snap)] ++ heldLog s.par true level (later s.par c p.snap) (p.held ++ [(p.last, p.done)]))
      ⟨[.raise .ackTimeout], later s.par c (p.snap + p.span), pin, { w with t0 := later s.par c p.snap }⟩ := by
  have hsofar := leads_measure_held (s := s) (level := level) (limit := some l) (dst := dst) (js := js) (w := w) hm c p.snap
    p.held fun l' hl' => by cases hl'; exact hheld
  have hsample := hsofar.trans (leads_pulse (k := p.last) level hm)
  rw [afterSample_same_some, later_later] at hsample
  have hcheck := hsample.trans (leads_pulseCheck_past (l := l) (later_span s.par c p) (by
    rwa [elapsed_later hspan, toNat_ofNat_of_lt_cntSpan hspan]))
  have hcount : later s.par (later s.par (later s.par c p.snap) (heldTicks p.held)) (p.last + p.done) =
      later s.par c (p.snap + p.span) := by
    simp only [later_later, Pulse.span, Nat.add_assoc]
  rw [heldLog_append _ _ _ (later_toNat_lt ..)]
  simpa [heldDraws, heldLog, hcount, ← List.replicate_append_replicate] using hcheck

end

/-! ### The obligation -/

/-- Settles O34: the two steps by what their jobs do, and the whole measurement by `leads_measure`. -/
theorem measurementEnds : Obligations.MeasurementEnds := by
  refine ⟨?sample, ?lastRead, ?whole⟩
  case sample =>
    intro s level v limit dst js rest' hb hi hpin ht hl
    have hk := sensorKeeps_advanceTimer s
    refine ⟨_, step_pulse hi hb (by rw [hpin]; rfl) ht hl, by simp, rfl, by simp, by simp, by simp, rfl, hk, ?_⟩
    cases limit <;> rfl
  case lastRead =>
    intro s limit dst js d hb hi ht hd
    obtain ⟨hobs, hsns, hport, hcnt, hkeeps⟩ := runPulseEnd_frame limit dst (takeJob js (advanceTimer s))
    have hk := (sensorKeeps_takeJob js s).trans hkeeps
    have hd' : elapsed (takeJob js (advanceTimer s)).par (takeJob js (advanceTimer s)).cnt
        (takeJob js (advanceTimer s)).work.t0 = d := by simp [hd]
    refine ⟨_, step_pulseEnd hi hb ht, by simp [hobs], by simp [hsns], by simp [hport], by simp [hcnt], hk, ?_, ?_⟩
    · rintro ⟨l, rfl, hl⟩
      rw [runPulseEnd_past (hd'.symm ▸ hl)]
      exact step_abort_of_sensor (fun _ => rfl) hi hb js _
    · intro hl
      rw [runPulseEnd_within (hd'.symm ▸ hl), hd']
      refine ⟨rfl, ?_⟩
      cases dst <;> simp [Work.keep]
  case whole =>
    intro s level limit dst js p d w rest rest' hb hi hpin ht hp hd hw hticks hline
    obtain ⟨ph, hrun⟩ := (leads_measure (level := level) (dst := dst) (js := js) (pin := s.sns) (w := s.work)
      (by rw [hpin]; rfl) s.cnt hp).run hi hb hticks hline s.phase
    rw [← ht] at hrun
    refine ⟨_, hrun, rfl, rfl, rfl, rfl, rfl, rfl, ?_, rfl, ?_⟩
    · exact sensorKeeps_atSpot (by simp) (by simp) ..
    · subst hd hw
      cases dst <;> rfl

end Sys2Proof.Machine
end

section
/-! A whole SNS.READ on a scripted line (spec/41_sensor.md R98 to R106), up to any of its pulses, and its AckTimeout. -/

namespace Sys2Proof.Machine

/-! ### The other jobs of SNS.READ -/

theorem runAwaitLevel_same {s : State} {level : Bool} {limit : Word} {rest : List Bool} (hm : s.sns.mode = .inPu)
    (hl : s.env.line = level :: rest) :
    runAwaitLevel level limit s = emit (.snsSample level) { s with env.line := rest } := by
  rw [runAwaitLevel, snsRead_of_line hm hl, if_pos rfl]

theorem runAwaitLevel_other {s : State} {level : Bool} {limit : Word} {rest : List Bool} (hm : s.sns.mode = .inPu)
    (hl : s.env.line = (!level) :: rest) :
    runAwaitLevel level limit s =
      push [.awaitCheck level limit] (emit (.snsSample !level) { s with env.line := rest }) := by
  have hne : (!level) ≠ level := by cases level <;> decide
  rw [runAwaitLevel, snsRead_of_line hm hl, if_neg hne]

theorem runAwaitCheck_within {s : State} {level : Bool} {limit : Word}
    (h : (elapsed s.par s.cnt s.work.t0).toNat ≤ limit.toNat) :
    runAwaitCheck level limit s = push [.awaitLevel level limit] (emit (.tread s.cnt) s) :=
  if_neg (by simpa [pastLimit] using h)

section

variable {s : State} {js : List Job} {c : Word} {k : Nat} {pin : SnsPin} {w : Work}

theorem leads_enter (s : State) (p : Phase) (js : List Job) (c : Word) (k : Nat) (pin : SnsPin) (w : Work) :
    Leads s ⟨.enter p :: js, c, pin, w⟩ [k] [] [] ⟨js, later s.par c k, pin, w⟩ :=
  leads_silent (fun x => by simp) (fun _ => rfl) fun _ _ _ _ => ⟨p, rfl⟩

theorem leads_snsConfig (s : State) (m : SnsMode) (js : List Job) (c : Word) (k : Nat) (pin : SnsPin) (w : Work) :
    Leads s ⟨.snsConfig m :: js, c, pin, w⟩ [k] [] [.snsCfg m] ⟨js, later s.par c k, { pin with mode := m }, w⟩ :=
  leads_job (fun x => by simp) (fun _ => rfl) fun ph _ _ _ => ⟨ph, rfl⟩

theorem leads_snsDrive (s : State) (v : Bool) (js : List Job) (c : Word) (k : Nat) (pin : SnsPin) (w : Work) :
    Leads s ⟨.snsDrive v :: js, c, pin, w⟩ [k] [] [.snsDrive v] ⟨js, later s.par c k, { pin with drv := v }, w⟩ :=
  leads_job (fun x => by simp) (fun _ => rfl) fun ph _ _ _ => ⟨ph, rfl⟩

theorem leads_delayMs (s : State) (m : Nat) (js : List Job) (c : Word) (k : Nat) (pin : SnsPin) (w : Work) :
    Leads s ⟨.delayMs m :: js, c, pin, w⟩ [k] [] [.delayMs m] ⟨js, later s.par c k, pin, w⟩ :=
  leads_job (fun x => by simp) (fun _ => rfl) fun ph _ _ _ => ⟨ph, rfl⟩

/-- The head of bit reception's loop before one of the frame's bits (R106). -/
theorem leads_bits (h : w.i < s.par.frameBits) :
    Leads s ⟨.bits :: js, c, pin, w⟩ [k] [] [] ⟨bitJobs w.i s.par.bitPulseLimit ++ js, later s.par c k, pin, w⟩ :=
  leads_silent (fun x => by simp) (fun _ => rfl) fun ph _ _ _ => ⟨ph, (if_pos h).trans rfl⟩

theorem leads_nextBit (s : State) (js : List Job) (c : Word) (k : Nat) (pin : SnsPin) (w : Work) :
    Leads s ⟨.nextBit :: js, c, pin, w⟩ [k] [] [] ⟨js, later s.par c k, pin, { w with i := w.i + 1 }⟩ :=
  leads_silent (fun x => by simp) (fun _ => rfl) fun ph _ _ _ => ⟨ph, rfl⟩

/-- A read of WaitTicks that finds less than `n` leaves the loop where it is (R87). -/
theorem leads_spin_below {n : Word} (h : (later s.par c k).toNat < n.toNat) :
    Leads s ⟨.spin n :: js, c, pin, w⟩ [k] [] [.tread (later s.par c k)] ⟨.spin n :: js, later s.par c k, pin, w⟩ :=
  leads_job (fun x => by simp) (fun _ => rfl) fun ph _ _ _ =>
    ⟨ph, (if_neg (ne_true_of_eq_false (reached_eq_false h))).trans rfl⟩

/-- A read of WaitTicks that finds at least `n` ends the loop (R87). -/
theorem leads_spin_done {n : Word} (h : n.toNat ≤ (later s.par c k).toNat) :
    Leads s ⟨.spin n :: js, c, pin, w⟩ [k] [] [.tread (later s.par c k)] ⟨js, later s.par c k, pin, w⟩ :=
  leads_job (fun x => by simp) (fun _ => rfl) fun ph _ _ _ => ⟨ph, (if_pos (reached_eq_true h)).trans rfl⟩

theorem leads_awaitLevel_same {level : Bool} {limit : Word} (hm : pin.mode = .inPu) :
    Leads s ⟨.awaitLevel level limit :: js, c, pin, w⟩ [k] [level] [.snsSample level] ⟨js, later s.par c k, pin, w⟩ :=
  leads_job (fun x => by simp) (fun _ => rfl) fun ph _ _ _ => ⟨ph, runAwaitLevel_same hm rfl⟩

theorem leads_awaitLevel_other {level : Bool} {limit : Word} (hm : pin.mode = .inPu) :
    Leads s ⟨.awaitLevel level limit :: js, c, pin, w⟩ [k] [!level] [.snsSample !level]
      ⟨.awaitCheck level limit :: js, later s.par c k, pin, w⟩ :=
  leads_job (fun x => by simp) (fun _ => rfl) fun ph _ _ _ => ⟨ph, runAwaitLevel_other hm rfl⟩

theorem leads_awaitCheck_within {level : Bool} {limit : Word}
    (h : (elapsed s.par (later s.par c k) w.t0).toNat ≤ limit.toNat) :
    Leads s ⟨.awaitCheck level limit :: js, c, pin, w⟩ [k] [] [.tread (later s.par c k)]
      ⟨.awaitLevel level limit :: js, later s.par c k, pin, w⟩ :=
  leads_job (fun x => by simp) (fun _ => rfl) fun ph _ _ _ => ⟨ph, runAwaitCheck_within h⟩

/-! ### Phase 1, the idle check -/

/-- The idle check up to the last of its low samples, none of whose checks finds more than IDLE_TIMEOUT (R90, R99). -/
theorem leads_idleCheck_held (c : Word) (config snap : Nat) (low : List (Nat × Nat))
    (hl : heldTicks low ≤ s.par.idleTimeout.toNat) :
    Leads s ⟨idleCheckJobs s.par ++ js, c, pin, w⟩ ([config, snap] ++ heldDraws true low) (List.replicate low.length false)
      ([.snsCfg .inPu, .tread (later s.par c (config + snap))] ++
        heldLog s.par true false (later s.par c (config + snap)) low)
      ⟨.awaitLevel true s.par.idleTimeout :: js, later s.par c (config + snap + heldTicks low),
        { pin with mode := .inPu }, { w with t0 := later s.par c (config + snap) }⟩ := by
  have hconfig := leads_snsConfig s .inPu (waitForLevel true s.par.idleTimeout ++ js) c config pin w
  have hsnap := leads_snapT0 s (.awaitLevel true s.par.idleTimeout :: js) (later s.par c config) snap
    { pin with mode := .inPu } w
  rw [later_later] at hsnap
  have hheld := leads_rounds (s := s) (js := js) (pin := { pin with mode := .inPu })
    (w := { w with t0 := later s.par c (config + snap) }) (limit := some s.par.idleTimeout) (checked := true)
    (fun n h hlim => leads_checkedRound (fun _ _ => leads_awaitLevel_other (level := true) (limit := s.par.idleTimeout) rfl)
      (fun _ _ => leads_awaitCheck_within) n h (hlim _ rfl)) low 0
    fun l hlim => by cases hlim; simpa using hl
  simp only [later_later, Nat.add_zero, Nat.zero_add] at hheld
  exact (hconfig.trans hsnap).trans hheld

/-- The idle check that finds the line high: no read follows the sample (R90, R99). -/
theorem leads_idleCheck (c : Word) (config snap high : Nat) (low : List (Nat × Nat))
    (hl : heldTicks low ≤ s.par.idleTimeout.toNat) :
    Leads s ⟨idleCheckJobs s.par ++ js, c, pin, w⟩ ([config, snap] ++ heldDraws true low ++ [high])
      (List.replicate low.length false ++ [true])
      ([.snsCfg .inPu, .tread (later s.par c (config + snap))] ++
        heldLog s.par true false (later s.par c (config + snap)) low ++ [.snsSample true])
      ⟨js, later s.par c (config + snap + heldTicks low + high), { pin with mode := .inPu },
        { w with t0 := later s.par c (config + snap) }⟩ := by
  have h := (leads_idleCheck_held (s := s) (js := js) (pin := pin) (w := w) c config snap low hl).trans
    (leads_awaitLevel_same (k := high) rfl)
  rwa [later_later] at h

/-! ### Phase 2, the request -/

theorem readsLog_append (par : Params) {c : Word} (hc : c.toNat < cntSpan par) (ks ks' : List Nat) :
    readsLog par c (ks ++ ks') = readsLog par c ks ++ readsLog par (later par c ks.sum) ks' := by
  induction ks generalizing c with
  | nil => rw [List.sum_nil, later_zero_ticks hc]; rfl
  | cons k ks ih =>
    rw [List.sum_cons, ← later_later, List.cons_append, readsLog, readsLog, ih (later_toNat_lt ..), List.cons_append]

/-- A whole wait of `n` ticks: CntReset(), the reads below `n`, and the read that reaches it (R87). -/
theorem leads_waitTicks {n : Word} {reset last : Nat} {ks : List Nat} (hks : ks = [] ∨ ks.sum < n.toNat)
    (hn : n.toNat ≤ ks.sum + last) (hspan : ks.sum + last < cntSpan s.par) :
    Leads s ⟨waitTicks n ++ js, c, pin, w⟩ ([reset] ++ (ks ++ [last])) [] ([.treset] ++ readsLog s.par 0 (ks ++ [last]))
      ⟨js, BitVec.ofNat 32 (ks.sum + last), pin, w⟩ := by
  have hlast : later s.par (later s.par 0 ks.sum) last = BitVec.ofNat 32 (ks.sum + last) := by
    rw [later_later, later_from_zero hspan]
  have hreads : Leads s ⟨.spin n :: js, 0, pin, w⟩ ks [] (readsLog s.par 0 ks) ⟨.spin n :: js, later s.par 0 ks.sum, pin, w⟩ :=
    leads_reads (fun _ _ => leads_spin_below) ks (cntSpan_pos _) fun hne => by simpa using hks.resolve_left hne
  have hend := hreads.trans (leads_spin_done (k := last) (by rwa [hlast, toNat_ofNat_of_lt_cntSpan hspan]))
  rw [hlast] at hend
  rw [readsLog_append (c := 0) _ (cntSpan_pos s.par), readsLog, hlast]
  exact (leads_cntReset s (.spin n :: js) c reset pin w).trans hend

/-- Phase 2 leaves the pin at rest, and CNT at what the wait's last read has found (R100). -/
theorem leads_request {request ks : List Nat} {last : Nat} (c : Word) (pin : SnsPin) (hr : request.length = 7)
    (hks : ks = [] ∨ ks.sum < s.par.postReleaseWait.toNat) (hn : s.par.postReleaseWait.toNat ≤ ks.sum + last)
    (hspan : ks.sum + last < cntSpan s.par) :
    Leads s ⟨requestJobs s.par ++ js, c, pin, w⟩ (request ++ (ks ++ [last])) []
      ([.snsCfg .outOd, .snsDrive false, .delayMs s.par.reqHoldMs, .snsDrive true, .snsCfg .inPu, .treset] ++
        readsLog s.par 0 (ks ++ [last]))
      ⟨js, BitVec.ofNat 32 (ks.sum + last), snsAtRest, w⟩ := by
  match request, hr with
  | [k0, k1, k2, k3, k4, k5, k6], _ =>
    exact (leads_enter s _ _ c k0 pin w).trans <| (leads_snsConfig s .outOd _ _ k1 _ w).trans <|
      (leads_snsDrive s false _ _ k2 _ w).trans <| (leads_delayMs s s.par.reqHoldMs _ _ k3 _ w).trans <|
      (leads_snsDrive s true _ _ k4 _ w).trans <| (leads_snsConfig s .inPu _ _ k5 _ w).trans <|
      leads_waitTicks (reset := k6) hks hn hspan

end

/-! ### Phases 3 and 4, the pulses -/

/-- Where pulse number `j` is kept (R101, R102, R106). -/
def pulseTo (j : Nat) : PulseTo := if j < 2 then .discard else if j % 2 = 0 then .low else .high

/-- The jobs ahead when the turn of pulse number `j` comes: its PHASE, or the head of the bits' loop, is next. -/
def jobsBefore (par : Params) : Nat → List Job
  | 0 => ackJobs par ++ receiveJobs
  | 1 => [.enter .snsAckHigh] ++ measurePulse true (some par.ackLimit) .discard ++ receiveJobs
  | j + 2 =>
    if j % 2 = 0 then receiveJobs
    else [.enter (.snsBitHigh (j / 2))] ++ measurePulse true par.bitPulseLimit .high ++ [.nextBit] ++ receiveJobs

/-- The job that counts a bit, after its high pulse (R106). -/
def countBit (j : Nat) : List Job := if j % 2 == 1 ∧ 2 ≤ j then [.nextBit] else []

/-- The jobs ahead when pulse number `j` has been measured. -/
def jobsAfter (par : Params) (j : Nat) : List Job := countBit j ++ jobsBefore par (j + 1)

/-- The working registers after the bit's count, where pulse number `j` ends a bit. -/
def Work.countBit (w : Work) (j : Nat) : Work := if j % 2 == 1 ∧ 2 ≤ j then { w with i := w.i + 1 } else w

/-- The working registers after pulse number `j`, measured from a count `c` on, with its bit counted. -/
def Work.pulse (w : Work) (par : Params) (j : Nat) (c : Word) (p : Pulse) : Work :=
  (({ w with t0 := later par c p.snap } : Work).keep (pulseTo j) (BitVec.ofNat 32 p.span)).countBit j

/-- The working registers after pulses from number `j` and a count `c` on. -/
def Work.pulses (par : Params) : Nat → Word → List Pulse → Work → Work
  | _, _, [], w => w
  | j, c, p :: ps, w => Work.pulses par (j + 1) (later par c (p.snap + p.span)) ps (w.pulse par j c p)

theorem Work.countBit_polls (w : Work) (j : Nat) : (w.countBit j).polls = w.polls := by unfold Work.countBit; split <;> rfl

theorem Work.countBit_nXfer (w : Work) (j : Nat) : (w.countBit j).nXfer = w.nXfer := by unfold Work.countBit; split <;> rfl

@[simp] theorem Work.pulse_polls (w : Work) (par : Params) (j : Nat) (c : Word) (p : Pulse) :
    (w.pulse par j c p).polls = w.polls := by rw [Work.pulse, Work.countBit_polls, Work.keep_polls]

@[simp] theorem Work.pulse_nXfer (w : Work) (par : Params) (j : Nat) (c : Word) (p : Pulse) :
    (w.pulse par j c p).nXfer = w.nXfer := by rw [Work.pulse, Work.countBit_nXfer, Work.keep_nXfer]

/-- The index of the bit that pulse number `j` belongs to stands in I when its turn comes (R106). -/
theorem Work.pulse_i {w : Work} {j : Nat} (hi : w.i = (j - 2) / 2) (par : Params) (c : Word) (p : Pulse) :
    (w.pulse par j c p).i = (j + 1 - 2) / 2 := by
  unfold Work.pulse Work.countBit
  split
  case isTrue h =>
    simp only [beq_iff_eq] at h
    simp only [Work.keep_i, hi]
    omega
  case isFalse h =>
    simp only [beq_iff_eq] at h
    simp only [Work.keep_i, hi]
    omega

@[simp] theorem Work.pulses_polls (par : Params) (j : Nat) (c : Word) (ps : List Pulse) (w : Work) :
    (Work.pulses par j c ps w).polls = w.polls := by
  induction ps generalizing j c w with
  | nil => rfl
  | cons p ps ih => rw [Work.pulses, ih, Work.pulse_polls]

@[simp] theorem Work.pulses_nXfer (par : Params) (j : Nat) (c : Word) (ps : List Pulse) (w : Work) :
    (Work.pulses par j c ps w).nXfer = w.nXfer := by
  induction ps generalizing j c w with
  | nil => rfl
  | cons p ps ih => rw [Work.pulses, ih, Work.pulse_nXfer]

theorem Work.pulses_i (par : Params) {j : Nat} (c : Word) (ps : List Pulse) {w : Work} (hi : w.i = (j - 2) / 2) :
    (Work.pulses par j c ps w).i = (j + ps.length - 2) / 2 := by
  induction ps generalizing j c w with
  | nil => exact hi
  | cons p ps ih => rw [Work.pulses, ih _ (Work.pulse_i hi par c p), List.length_cons, Nat.add_assoc, Nat.add_comm 1]

section

variable {s : State} {j : Nat} {c : Word} {pin : SnsPin} {w : Work}

/-- The silent steps before a pulse, in which no tick passes (R101, R102, R106). -/
theorem leads_pulseGap (hi : w.i = (j - 2) / 2) (hj : j < 2 + 2 * s.par.frameBits) (hc : c.toNat < cntSpan s.par) :
    Leads s ⟨jobsBefore s.par j, c, pin, w⟩ (pulseGap j) [] []
      ⟨measurePulse (pulseLevel j) (pulseLimit s.par j) (pulseTo j) ++ jobsAfter s.par j, c, pin, w⟩ := by
  have henter : ∀ p js, Leads s ⟨.enter p :: js, c, pin, w⟩ [0] [] [] ⟨js, c, pin, w⟩ := fun p js => by
    have h := leads_enter s p js c 0 pin w
    rwa [later_zero_ticks hc] at h
  match j, hi, hj with
  | 0, _, _ => exact henter .snsAckLow _
  | 1, _, _ => exact henter .snsAckHigh _
  | j + 2, hi, hj =>
    have hidx : w.i = j / 2 := by simpa using hi
    rcases Nat.mod_two_eq_zero_or_one j with hpar | hpar
    · have hbits := leads_bits (s := s) (js := [.assemble, .enter .snsDecode, .validate]) (c := c) (k := 0) (pin := pin)
        (w := w) (by omega)
      rw [later_zero_ticks hc] at hbits
      have hhalf : (j + 1) / 2 = j / 2 := by omega
      have hnext : (j + 1) % 2 = 1 := by omega
      simpa [jobsBefore, jobsAfter, countBit, pulseGap, pulseLevel, pulseLimit, pulseTo, bitJobs, receiveJobs, hpar, hidx,
        hhalf, hnext] using hbits.trans (henter (.snsBitLow w.i) _)
    · have hnext : (j + 1) % 2 = 0 := by omega
      simpa [jobsBefore, jobsAfter, countBit, pulseGap, pulseLevel, pulseLimit, pulseTo, hpar, hnext] using
        henter (.snsBitHigh (j / 2)) _

/-- The silent step after a bit, in which no tick passes (R106). -/
theorem leads_countBit (js : List Job) (hc : c.toNat < cntSpan s.par) :
    Leads s ⟨countBit j ++ js, c, pin, w⟩ (if j % 2 == 1 ∧ 2 ≤ j then [0] else []) [] [] ⟨js, c, pin, w.countBit j⟩ := by
  unfold countBit Work.countBit
  split
  · have h := leads_nextBit s js c 0 pin w
    rwa [later_zero_ticks hc] at h
  · exact .refl s _

/-- One pulse that keeps its limit, with the silent steps around it. -/
theorem leads_onePulse (hm : pin.mode = .inPu) {p : Pulse} (hp : p.Fits s.par (pulseLimit s.par j))
    (hi : w.i = (j - 2) / 2) (hj : j < 2 + 2 * s.par.frameBits) (hc : c.toNat < cntSpan s.par) :
    Leads s ⟨jobsBefore s.par j, c, pin, w⟩
      (pulseGap j ++ p.draws (pulseLimit s.par j).isSome ++ (if j % 2 == 1 ∧ 2 ≤ j then [0] else []))
      (p.line (pulseLevel j)) (p.log s.par (pulseLimit s.par j).isSome (pulseLevel j) c)
      ⟨jobsBefore s.par (j + 1), later s.par c (p.snap + p.span), pin, w.pulse s.par j c p⟩ := by
  have h := ((leads_pulseGap hi hj hc).trans (leads_measure (dst := pulseTo j) hm c hp)).trans
    (leads_countBit _ (later_toNat_lt ..))
  simp only [List.nil_append, List.append_nil] at h
  exact h

/-- Any number of pulses that keep their limits. -/
theorem leads_pulses (hm : pin.mode = .inPu) (ps : List Pulse) (hi : w.i = (j - 2) / 2)
    (hj : j + ps.length ≤ 2 + 2 * s.par.frameBits) (hc : c.toNat < cntSpan s.par)
    (hps : ∀ (i : Nat) (p : Pulse), ps[i]? = some p → p.Fits s.par (pulseLimit s.par (j + i))) :
    Leads s ⟨jobsBefore s.par j, c, pin, w⟩ (pulsesDraws s.par j ps) (pulsesLine j ps) (pulsesLog s.par j c ps)
      ⟨jobsBefore s.par (j + ps.length), later s.par c (ps.map fun p => p.snap + p.span).sum, pin,
        Work.pulses s.par j c ps w⟩ := by
  induction ps generalizing j c w with
  | nil =>
    rw [List.map_nil, List.sum_nil, later_zero_ticks hc]
    exact .refl s _
  | cons p ps ih =>
    rw [List.length_cons] at hj
    have hfirst := leads_onePulse hm (hps 0 p rfl) hi (by omega) hc
    have hrest := ih (Work.pulse_i hi s.par c p) (by omega) (later_toNat_lt s.par c (p.snap + p.span)) fun i q hq => by
      have := hps (i + 1) q hq
      rwa [show j + (i + 1) = j + 1 + i by omega] at this
    rw [later_later, show j + 1 + ps.length = j + (p :: ps).length by simp; omega] at hrest
    exact hfirst.trans hrest

end

/-! ### The whole operation -/

/-- A scripted run that comes to the raise of an error of SNS.READ ends with it in the next step, whatever the timer draws then
(R161, R162). -/
theorem Leads.raises {s : State} {p q : Spot} {draws ticks : List Nat} {line lines : List Bool} {evs : List Event}
    {st : Status} {js : List Job} (h : Leads s p draws line evs q) (hst : ∀ a, forgetAfter st a = forgetSensor a)
    (htodo : q.todo = .raise st :: js) (hpolls : q.work.polls = s.work.polls) (hn : q.work.nXfer = s.work.nXfer)
    (hi : s.inputs = []) (hb : s.port.opbusy = true) (ht : s.env.ticks = draws ++ ticks) (hl : s.env.line = line ++ lines)
    (ph : Phase) :
    ∃ u, runs (draws.length + 1) (s.atSpot p ph s.obs.log s.env.ticks s.env.line) = .next u ∧ RaisedError st s u ∧
      u.sns = q.sns ∧ SensorKeeps s u ∧ u.obs.log = s.obs.log ++ evs := by
  obtain ⟨ph', hrun⟩ := h.run hi hb ht hl ph
  obtain ⟨u, hu, hraise, hlog, hsns, hk⟩ := step_raise_of_sensor (s := s)
    (t := s.atSpot q ph' (s.obs.log ++ evs) ticks lines) hst hi hb htodo rfl (sensorKeeps_atSpot hpolls hn ..)
  exact ⟨u, (runs_add hrun 1).trans (runs_succ hu 0), hraise, hsns, hk, hlog⟩

/-- The jobs of SNS.READ (R98). -/
def snsReadJobs (par : Params) : List Job := idleCheckJobs par ++ requestJobs par ++ ackJobs par ++ receiveJobs

/-- The working registers after a reading that began with the registers `w` and a count `c`. -/
def Reading.work (par : Params) (c : Word) (w : Work) (r : Reading) : Work :=
  Work.pulses par 0 (BitVec.ofNat 32 r.released) r.pulses { w with t0 := r.start par c }

/-- SNS.READ up to any of its pulses, all before it keeping their limits: the pin is at rest, and the jobs from that pulse on are
ahead (R98 to R106). -/
theorem leads_reading {s : State} {c : Word} {pin : SnsPin} {w : Work} {r : Reading} (hr : r.Fits s.par) (hi : w.i = 0) :
    Leads s ⟨snsReadJobs s.par, c, pin, w⟩ (r.ticks s.par) r.line (r.log s.par c)
      ⟨jobsBefore s.par r.pulses.length, r.count s.par, snsAtRest, r.work s.par c w⟩ := by
  obtain ⟨hlow, hrequest, hreads, hwait, hspan, hpulses, hfits⟩ := hr
  have hidle := leads_idleCheck (s := s) (js := requestJobs s.par ++ (ackJobs s.par ++ receiveJobs)) (pin := pin) (w := w)
    c r.config r.snap r.high r.low hlow
  have hreq := hidle.trans
    (leads_request (request := r.request) (ks := r.reads) (last := r.lastRead) _ _ hrequest hreads hwait hspan)
  have hall := hreq.trans (leads_pulses (j := 0) rfl r.pulses hi (by omega)
    ((toNat_ofNat_of_lt_cntSpan hspan).symm ▸ hspan) fun i p hp => by rw [Nat.zero_add]; exact hfits i p hp)
  simpa [snsReadJobs, Reading.ticks, Reading.line, Reading.log, Reading.start, Reading.count, Reading.released, Reading.work]
    using hall

/-- SNS.READ is started at its first job, with I = 0 (R98; assumption log 26). -/
theorem exec_snsRead (s : State) :
    exec .snsRead s = .next (s.atSpot ⟨snsReadJobs s.par, s.cnt, s.sns, { s.work with i := 0 }⟩ .snsIdleCheck s.obs.log
      s.env.ticks s.env.line) := rfl

/-- A pulse that is too long, found by the read at its end or by a check while the line is still at the level. -/
theorem leads_tooLong {s : State} {j : Nat} {c l : Word} {pin : SnsPin} {w : Work} {p : Pulse} {draws : List Nat}
    {line : List Bool} {evs : List Event} (hm : pin.mode = .inPu) (hi : w.i = (j - 2) / 2)
    (hj : j < 2 + 2 * s.par.frameBits) (hc : c.toNat < cntSpan s.par) (hlim : pulseLimit s.par j = some l)
    (hheld : heldTicks p.held ≤ l.toNat) (hl : l.toNat < p.span) (hspan : p.span < cntSpan s.par)
    (hend : (draws, line, evs) = (p.draws true, p.line (pulseLevel j), p.log s.par true (pulseLevel j) c) ∨
      (draws, line, evs) = (p.snap :: heldDraws true (p.held ++ [(p.last, p.done)]),
        List.replicate (p.held.length + 1) (pulseLevel j), [.tread (later s.par c p.snap)] ++
          heldLog s.par true (pulseLevel j) (later s.par c p.snap) (p.held ++ [(p.last, p.done)]))) :
    Leads s ⟨jobsBefore s.par j, c, pin, w⟩ (pulseGap j ++ draws) line evs
      ⟨[.raise .ackTimeout], later s.par c (p.snap + p.span), pin, { w with t0 := later s.par c p.snap }⟩ := by
  have hgap := leads_pulseGap (pin := pin) hi hj hc
  rw [hlim] at hgap
  rcases hend with h | h <;> cases h
  · exact hgap.trans (leads_measure_pastEnd hm c hheld hl hspan)
  · exact hgap.trans (leads_measure_pastCheck hm c hheld hl hspan)

/-- Settles O33: the check by what its job does (`runPulseCheck_past`, `runPulseCheck_within`), the whole SNS.READ by
`leads_reading` up to the long pulse and `leads_tooLong` from there on, and the raise. -/
theorem ackTimeoutPastLimit : Obligations.AckTimeoutPastLimit := by
  refine ⟨?check, ?whole⟩
  case check =>
    intro s level limit dst js hb hi ht
    obtain ⟨hobs, hsns, hport, hwork, hkeeps⟩ := runPulseCheck_frame level limit dst (takeJob js (advanceTimer s))
    have hk := (sensorKeeps_takeJob js s).trans hkeeps
    have hd : elapsed (takeJob js (advanceTimer s)).par (takeJob js (advanceTimer s)).cnt
        (takeJob js (advanceTimer s)).work.t0 = elapsed s.par (advanceTimer s).cnt s.work.t0 := by simp
    refine ⟨_, step_pulseCheck hi hb ht, by simp [hobs], by simp [hsns], by simp [hport], by simp [hwork], hk, ?_⟩
    split
    case isTrue hl =>
      rw [runPulseCheck_past (hd.symm ▸ hl)]
      exact step_abort_of_sensor (fun _ => rfl) hi hb js _
    case isFalse hl =>
      rw [runPulseCheck_within (hd.symm ▸ Nat.le_of_not_lt hl)]
      rfl
  case whole =>
    intro s r j l p draws rest line rest' evs hi hb hr hj hjlt hlim hheld hl hspan hend hticks hline
    subst hj
    have hwork : (r.work s.par s.cnt { s.work with i := 0 }).i = (r.pulses.length - 2) / 2 := by
      have h := Work.pulses_i s.par (j := 0) (BitVec.ofNat 32 r.released) r.pulses
        (w := { s.work with i := 0, t0 := r.start s.par s.cnt }) rfl
      rwa [Nat.zero_add] at h
    have hlong := (leads_reading (c := s.cnt) (pin := s.sns) (w := { s.work with i := 0 }) hr rfl).trans
      (leads_tooLong rfl hwork hjlt (later_toNat_lt ..) hlim hheld hl hspan hend)
    rw [← List.append_assoc] at hlong
    obtain ⟨u, hrun, hraise, hsns, hk, hlog⟩ := hlong.raises (fun _ => rfl) rfl (by simp [Reading.work])
      (by simp [Reading.work]) hi hb hticks hline .snsIdleCheck
    exact ⟨_, exec_snsRead s, u, hrun, hraise, hsns, hk, by rw [hlog, List.append_assoc]⟩

end Sys2Proof.Machine
end

section
/-! What a step can do, said once: what each job does, what each operation's meaning and each transfer's meaning does, and from
them what a whole step does (spec/00_scope.md R8, R14; spec/10_state.md R19, R20, R23). -/

namespace Sys2Proof.Machine

/-! ### The kinds of jobs -/

/-- A job that touches neither the sensor pin nor INIT_DONE, and does not enter PHASE = IDLE. -/
def Job.isPlain : Job → Bool
  | .snsConfig _ | .snsDrive _ | .initEnd => false
  | .enter p => decide (p ≠ .idle)
  | _ => true

/-- A job that may come between the sensor pin's own changes and touches no pin: a wait (R100). -/
def Job.isWait : Job → Bool
  | .delayMs _ | .cntReset | .spin _ => true
  | _ => false

/-- A job that writes one of the LCD pins (R26). -/
def Job.writesLcd : Job → Bool
  | .setRS _ | .setRW _ | .setE _ | .setDDir _ | .drive _ => true
  | _ => false

/-- A job that the sensor pin's invariant allows only with the pin at rest. -/
def Job.NeedsRest (j : Job) : Prop :=
  ∀ pin js, snsJobs pin (j :: js) = (decide (pin = snsAtRest) && snsJobs pin js)

/-- Plain jobs may be put before any list of jobs that starts with the pin at rest. -/
theorem snsJobs_plain_append {js : List Job} (h : js.all Job.isPlain = true) (rest : List Job) :
    snsJobs snsAtRest (js ++ rest) = snsJobs snsAtRest rest := by
  induction js with
  | nil => rfl
  | cons j js ih =>
    simp only [List.all_cons, Bool.and_eq_true] at h
    obtain ⟨hj, hjs⟩ := h
    rw [List.cons_append]
    cases j with
    | snsConfig | snsDrive | initEnd => cases hj
    | _ => exact ih hjs

theorem snsJobs_wait {j : Job} (h : j.isWait = true) (pin : SnsPin) (js : List Job) :
    snsJobs pin (j :: js) = snsJobs pin js := by
  cases j with
  | delayMs | cntReset | spin => rfl
  | _ => cases h

theorem entersNoIdle_append (as bs : List Job) :
    entersNoIdle (as ++ bs) = (entersNoIdle as && entersNoIdle bs) := List.all_append

theorem entersNoIdle_of_plain {js : List Job} (h : js.all Job.isPlain = true) : entersNoIdle js = true := by
  rw [List.all_eq_true] at h
  refine List.all_eq_true.2 fun j hj => decide_eq_true ?_
  rintro rfl
  exact absurd (h _ hj) (by decide)

theorem initEnd_notMem_of_plain {js : List Job} (h : js.all Job.isPlain = true) : .initEnd ∉ js := fun hm =>
  absurd (List.all_eq_true.1 h _ hm) (by decide)

/-! ### What a job does -/

/-- What a job that has been taken can do: keep waiting, go on with plain jobs put back, fail, or end the operation, or write
the one register that is its own. -/
inductive JobDoes (s : State) : Job → State → Prop where
  | waits {j : Job} {js : List Job} (cnt : Word) (log : List Event) (hj : j.isWait = true) (hjs : js = [] ∨ js = [j]) :
      JobDoes s j { s with cnt := cnt, obs.log := log, todo := js ++ s.todo }
  | goesOn {j : Job} (js : List Job) (work : Work) (ac : BitVec 7) (toflag : Bool) (env : Env) (draws : Nat)
      (log : List Event) (hj : j.NeedsRest) (hjs : js.all Job.isPlain = true) (henv : env.ticks = s.env.ticks) :
      JobDoes s j { s with
        work := work, ac := ac, toflag := toflag, env := env, draws := draws, obs.log := log, todo := js ++ s.todo }
  | fails {j : Job} (st : Status) (log : List Event) (hj : j.NeedsRest) :
      JobDoes s j { s with obs.log := log, todo := [.raise st] }
  | ends {j : Job} (st : Status) (v : Word) (work : Work) (toflag : Bool) (draws : Nat) (hj : j.NeedsRest) :
      JobDoes s j (conclude st v { s with work := work, toflag := toflag, draws := draws })
  | endsInit (st : Status) (v : Word) (work : Work) (toflag : Bool) (draws : Nat) :
      JobDoes s .initEnd (conclude st v { s with
        work := work, toflag := toflag, draws := draws, set := ⟨false, false, false⟩, cfg.initDone := true })
  | enters (p : Phase) : JobDoes s (.enter p) { s with phase := p }
  | configuresSns (m : SnsMode) : JobDoes s (.snsConfig m) (runSnsConfig m s)
  | drivesSns (v : Bool) : JobDoes s (.snsDrive v) (runSnsDrive v s)
  | writesLcd {j : Job} (lcd : LcdPins) (log : List Event) (hj : j.writesLcd = true) (hr : j.NeedsRest) :
      JobDoes s j { s with lcd := lcd, obs.log := log }
  | setsSettings (d c b : Bool) : JobDoes s (.setSettings d c b) (runSetSettings d c b s)
  | storesRead (i : Nat) : JobDoes s (.storeRead i) (runStoreRead i s)

/-- A sample of the line writes the log, the sensor's script and the count of free values alone. -/
theorem snsRead_state (s : State) :
    ∃ log env d, (snsRead s).2 = { s with obs.log := log, env := env, draws := d } ∧ env.ticks = s.env.ticks := by
  unfold snsRead
  split
  · exact ⟨_, s.env, s.draws, rfl, rfl⟩
  · rcases drawLevel_cases s with ⟨v, rest, -, h⟩ | ⟨-, h⟩ <;> rw [h]
    · exact ⟨_, { s.env with line := rest }, s.draws, rfl, rfl⟩
    · exact ⟨_, s.env, s.draws + 1, rfl, rfl⟩

/-- A job that only appends to the log and may put plain jobs back. -/
theorem JobDoes.logs {s : State} {j : Job} (js : List Job) (log : List Event) (hj : j.NeedsRest)
    (hjs : js.all Job.isPlain = true) : JobDoes s j { s with obs.log := log, todo := js ++ s.todo } :=
  .goesOn js s.work s.ac s.toflag s.env s.draws log hj hjs rfl

/-- A job that only writes working registers, AC_SHADOW or TOFLAG and may put plain jobs back. -/
theorem JobDoes.works {s : State} {j : Job} (js : List Job) (work : Work) (ac : BitVec 7) (toflag : Bool)
    (hj : j.NeedsRest) (hjs : js.all Job.isPlain = true) :
    JobDoes s j { s with work := work, ac := ac, toflag := toflag, todo := js ++ s.todo } :=
  .goesOn js work ac toflag s.env s.draws s.obs.log hj hjs rfl

theorem jobDoes_push_snsRead {s : State} {j : Job} (js : List Job) (hj : j.NeedsRest) (hjs : js.all Job.isPlain = true) :
    JobDoes s j (push js (snsRead s).2) := by
  obtain ⟨log, env, d, h, henv⟩ := snsRead_state s
  rw [h]
  exact .goesOn js s.work s.ac s.toflag env d log hj hjs henv

theorem jobDoes_runAwaitLevel (level : Bool) (limit : Word) (s : State) :
    JobDoes s (.awaitLevel level limit) (runAwaitLevel level limit s) := by
  unfold runAwaitLevel
  split
  · exact jobDoes_push_snsRead [] (fun _ _ => rfl) rfl
  · exact jobDoes_push_snsRead [_] (fun _ _ => rfl) rfl

theorem jobDoes_runPulse (level : Bool) (limit : Option Word) (dst : PulseTo) (s : State) :
    JobDoes s (.pulse level limit dst) (runPulse level limit dst s) := by
  unfold runPulse
  split
  · cases limit <;> exact jobDoes_push_snsRead [_] (fun _ _ => rfl) rfl
  · exact jobDoes_push_snsRead [_] (fun _ _ => rfl) rfl

theorem jobDoes_runPulseEnd (limit : Option Word) (dst : PulseTo) (s : State) :
    JobDoes s (.pulseEnd limit dst) (runPulseEnd limit dst s) := by
  unfold runPulseEnd
  split
  · exact .fails _ _ fun _ _ => rfl
  · cases dst <;> exact .goesOn [] _ s.ac s.toflag s.env s.draws _ (fun _ _ => rfl) rfl rfl

theorem jobDoes_runSample (lane : Lane) (s : State) : JobDoes s (.sample lane) (runSample lane s) := by
  unfold runSample
  rcases drawPins_cases s with ⟨v, rest, -, h⟩ | ⟨-, h⟩ <;> rw [h]
  · exact .goesOn [] _ s.ac s.toflag { s.env with pins := rest } s.draws _ (fun _ _ => rfl) rfl rfl
  · exact .goesOn [] _ s.ac s.toflag s.env (s.draws + 1) _ (fun _ _ => rfl) rfl rfl

theorem jobDoes_runPollTest (s : State) : JobDoes s .pollTest (runPollTest s) := by
  unfold runPollTest
  split
  · split
    · exact .works [] _ s.ac true (fun _ _ => rfl) rfl
    · exact .works (j := .pollTest) (waitTicks s.par.pollInterval ++ [.poll]) _ s.ac s.toflag (fun _ _ => rfl) rfl
  · exact .works [] s.work s.ac s.toflag (fun _ _ => rfl) rfl

theorem jobDoes_runLcdEnd {j : Job} (hj : j.NeedsRest) (v : Word) (s : State) : JobDoes s j (runLcdEnd v s) := by
  obtain ⟨w, f, d, h, -⟩ := forgetLcd_spec s
  rw [runLcdEnd, h]
  exact .ends _ v w f d hj

theorem jobDoes_runRaise (st : Status) (s : State) : JobDoes s (.raise st) (runRaise st s) := by
  obtain ⟨v, w, f, d, h⟩ := runRaise_spec st s
  rw [h]
  exact .ends st v w f d fun _ _ => rfl

theorem runJob_does (j : Job) (s : State) : JobDoes s j (runJob j s) := by
  cases j with
  | delayMs m => exact .waits s.cnt _ rfl (.inl rfl)
  | cntReset => exact .waits 0 _ rfl (.inl rfl)
  | spin n =>
    simp only [runJob, runSpin]
    split
    · exact .waits s.cnt _ rfl (.inl rfl)
    · exact .waits s.cnt _ rfl (.inr rfl)
  | timerWait n =>
    simp only [runJob, runTimerWait]
    split
    · exact .logs [.timerEnd s.cnt] _ (fun _ _ => rfl) rfl
    · exact .logs [.timerWait n] _ (fun _ _ => rfl) rfl
  | timerRead => exact .logs [.timerEnd s.cnt] _ (fun _ _ => rfl) rfl
  | timerEnd v => exact .ends .ok v s.work s.toflag s.draws fun _ _ => rfl
  | snsConfig m => exact .configuresSns m
  | snsDrive v => exact .drivesSns v
  | snapT0 => exact .goesOn [] _ s.ac s.toflag s.env s.draws _ (fun _ _ => rfl) rfl rfl
  | awaitLevel level limit => exact jobDoes_runAwaitLevel level limit s
  | awaitCheck level limit =>
    simp only [runJob, runAwaitCheck]
    split
    · exact .fails _ _ fun _ _ => rfl
    · exact .logs [.awaitLevel level limit] _ (fun _ _ => rfl) rfl
  | pulse level limit dst => exact jobDoes_runPulse level limit dst s
  | pulseCheck level limit dst =>
    simp only [runJob, runPulseCheck]
    split
    · exact .fails _ _ fun _ _ => rfl
    · exact .logs [.pulse level (some limit) dst] _ (fun _ _ => rfl) rfl
  | pulseEnd limit dst => exact jobDoes_runPulseEnd limit dst s
  | enter p => exact .enters p
  | bits =>
    simp only [runJob, runBits]
    split
    · exact .works (bitJobs s.work.i s.par.bitPulseLimit) s.work s.ac s.toflag (fun _ _ => rfl) rfl
    · exact .works [] s.work s.ac s.toflag (fun _ _ => rfl) rfl
  | nextBit | assemble => exact .works [] _ s.ac s.toflag (fun _ _ => rfl) rfl
  | validate =>
    obtain ⟨w, d, h, -⟩ := forgetSensor_spec s
    simp only [runJob, runValidate, h]
    split
    · exact .ends _ _ w s.toflag d fun _ _ => rfl
    · exact .ends _ _ w s.toflag d fun _ _ => rfl
  | setRS | setRW | setDDir | setE | drive => exact .writesLcd _ _ rfl fun _ _ => rfl
  | sample lane => exact jobDoes_runSample lane s
  | transfer w => exact .works [.transfer w] s.work s.ac s.toflag (fun _ _ => rfl) rfl
  | setAc | incAc | acFromRead => exact .works [] s.work _ s.toflag (fun _ _ => rfl) rfl
  | waitReady long =>
    simp only [runJob, runWaitReady]
    split
    · exact .works [.poll] _ s.ac s.toflag (fun _ _ => rfl) rfl
    · exact .works (waitTicks _) s.work s.ac s.toflag (fun _ _ => rfl) rfl
  | poll => exact .works [.transfer .busyr, .pollTest] s.work s.ac s.toflag (fun _ _ => rfl) rfl
  | pollTest => exact jobDoes_runPollTest s
  | initEnd => exact .endsInit ..
  | setSettings d c b => exact .setsSettings d c b
  | rowCap n => exact .works [] _ s.ac s.toflag (fun _ _ => rfl) rfl
  | writeNext i =>
    simp only [runJob, runWriteNext]
    split
    · exact .works [.transfer (.datw (s.port.wbuf.read i)), .waitReady false, .writeNext (i + 1)] s.work s.ac s.toflag
        (fun _ _ => rfl) rfl
    · exact jobDoes_runLcdEnd (fun _ _ => rfl) _ s
  | readNext i =>
    simp only [runJob, runReadNext]
    split
    · exact .works [.transfer .datr, .storeRead i, .waitReady false, .readNext (i + 1)] s.work s.ac s.toflag
        (fun _ _ => rfl) rfl
    · exact jobDoes_runLcdEnd (fun _ _ => rfl) _ s
  | storeRead i => exact .storesRead i
  | readEnd =>
    exact .works [.waitReady false, .lcdEnd (zextByte s.work.rx)] s.work s.ac s.toflag (fun _ _ => rfl) rfl
  | busyEnd => exact .ends _ _ (forgetLcd s).work (forgetLcd s).toflag (forgetLcd s).draws fun _ _ => rfl
  | settingsEnd => exact .ends _ _ s.work (forgetToflag s).toflag (forgetToflag s).draws fun _ _ => rfl
  | lcdEnd v => exact jobDoes_runLcdEnd (fun _ _ => rfl) v s
  | raise st => exact jobDoes_runRaise st s

/-! ### What an operation's meaning does -/

/-- What the meaning of an accepted operation can do: start with plain jobs, a failed check's raise among them, or start
LCD.INIT with a legal geometry, or start SNS.READ. -/
inductive CommandDoes (s : State) : Instr → State → Prop where
  | starts {i : Instr} {p : Phase} {js : List Job} (work : Work) (toflag : Bool) (hp : p ≠ .idle)
      (hjs : js.all Job.isPlain = true) :
      CommandDoes s i { s with phase := p, todo := js, work := work, toflag := toflag }
  | startsInit (cols : Byte) (f n dl : Bool) (h : configLegal s.par n cols = true) :
      CommandDoes s (.lcdInit cols f n dl) { s with
        cfg := ⟨dl, n, f, cols, false⟩, toflag := false, phase := .lcdRun 0
        todo := initJobs s.par dl (functionSetByte dl n f) }
  | startsSns : CommandDoes s .snsRead { s with phase := .snsIdleCheck, todo := snsReadJobs s.par, work.i := 0 }

theorem CommandDoes.lcdJobs {s : State} {i : Instr} {js : List Job} (work : Work) (toflag : Bool)
    (h : js.all Job.isPlain = true) :
    CommandDoes s i (lcdJobs js { s with work := work, toflag := toflag }) :=
  .starts work toflag (by simp) h

/-- An LCD operation whose body starts plain jobs in the state it is given starts plain jobs (R136, R138). -/
theorem commandDoes_lcdPrologue {i : Instr} {body : State → State} (s : State)
    (hbody : CommandDoes s i (body (clearToflag s))) : Yields (CommandDoes s i) (lcdPrologue body s) := by
  unfold lcdPrologue
  split
  · exact hbody
  · exact .lcdJobs s.work false rfl

theorem commandDoes_needsRw {i : Instr} {body : State → State} (s : State)
    (hbody : CommandDoes s i (body (clearToflag s))) : CommandDoes s i (needsRw body (clearToflag s)) := by
  unfold needsRw
  split
  · exact hbody
  · exact .lcdJobs s.work false rfl

theorem commandDoes_exec {i : Instr} (hi : i.isHostOp = true) (s : State) : Yields (CommandDoes s i) (exec i s) := by
  cases i with
  | tmrElapsed | tmrResetWait => exact .starts s.work s.toflag (by simp) rfl
  | snsRead => exact .startsSns
  | lcdInit cols f n dl =>
    change Yields _ (execLcdInit cols f n dl s)
    unfold execLcdInit
    split
    · exact .startsInit cols f n dl ‹_›
    · exact .lcdJobs s.work false rfl
  | lcdSetAddress addr =>
    change Yields _ (execLcdSetAddress addr s)
    unfold execLcdSetAddress
    split
    · exact .lcdJobs s.work s.toflag rfl
    · exact commandDoes_lcdPrologue s (.lcdJobs s.work false rfl)
  | lcdSetCursor row col =>
    change Yields _ (execLcdSetCursor row col s)
    refine commandDoes_lcdPrologue s ?_
    split <;> exact .lcdJobs s.work false rfl
  | lcdWriteRow n =>
    refine commandDoes_lcdPrologue s (.lcdJobs s.work false ?_)
    split <;> rfl
  | lcdSetDisplay | lcdClear | lcdHome | lcdWrite | lcdGetSettings =>
    exact commandDoes_lcdPrologue s (.lcdJobs s.work false rfl)
  | lcdRead | lcdIsBusy => exact commandDoes_lcdPrologue s (commandDoes_needsRw s (.lcdJobs s.work false rfl))
  | lcdReadRow n => exact commandDoes_lcdPrologue s (commandDoes_needsRw s (.lcdJobs { s.work with nXfer := n } false rfl))
  | busClearDisplay | busReturnHome | busEntryModeSet | busDisplayControl | busFunctionSet | busNib3 | busNib2
  | busSetDdramAddress | busBusyRead | busDataWrite | busDataRead => cases hi

/-! ### What a transfer's meaning does -/

/-- What the meaning of a transfer can do: put its plain jobs before the others, or fail without an RW pin. -/
inductive TransferDoes (s : State) : State → Prop where
  | issues (js : List Job) (h : js.all Job.isPlain = true) : TransferDoes s (push js s)
  | fails : TransferDoes s (abort .notSupported (forgetLcd s))

theorem isPlain_setRwIfPresent (par : Params) (rw : Bool) : (setRwIfPresent par rw).all Job.isPlain = true := by
  unfold setRwIfPresent
  split <;> rfl

theorem isPlain_beforeEnable (par : Params) (rs rw : Bool) : (beforeEnable par rs rw).all Job.isPlain = true := by
  simp only [beforeEnable, List.all_append, isPlain_setRwIfPresent]
  rfl

theorem isPlain_busCycleWrite (par : Params) (rs : Bool) (v : DataVal) :
    (busCycleWrite par rs v).all Job.isPlain = true := by
  simp only [busCycleWrite, List.all_append, isPlain_beforeEnable]
  rfl

theorem isPlain_busCycleRead (par : Params) (rs : Bool) (lane : Lane) :
    (busCycleRead par rs lane).all Job.isPlain = true := by
  simp only [busCycleRead, List.all_append, isPlain_beforeEnable]
  rfl

theorem isPlain_xferWrite (par : Params) (dl rs : Bool) (b : Byte) : (xferWrite par dl rs b).all Job.isPlain = true := by
  unfold xferWrite
  split <;> simp [isPlain_busCycleWrite]

theorem isPlain_xferRead (par : Params) (dl rs : Bool) : (xferRead par dl rs).all Job.isPlain = true := by
  unfold xferRead
  split <;> simp [isPlain_busCycleRead]

theorem transferDoes_issueCommand (b : Byte) {after : List Job} (h : after.all Job.isPlain = true) (s : State) :
    Yields (TransferDoes s) (issueCommand b after s) :=
  .issues _ (by rw [List.all_append, isPlain_xferWrite, h]; rfl)

theorem transferDoes_issueRead (rs : Bool) {after : List Job} (h : after.all Job.isPlain = true) (s : State) :
    Yields (TransferDoes s) (issueRead rs after s) := by
  unfold issueRead
  split
  · exact .issues _ (by rw [List.all_append, isPlain_xferRead, h]; rfl)
  · exact .fails

theorem transferDoes_exec {i : Instr} (hi : i.isHostOp = false) (s : State) : Yields (TransferDoes s) (exec i s) := by
  cases i with
  | busClearDisplay | busReturnHome | busEntryModeSet | busDisplayControl | busFunctionSet | busSetDdramAddress =>
    exact transferDoes_issueCommand _ rfl s
  | busNib3 | busNib2 => exact .issues _ (isPlain_busCycleWrite ..)
  | busDataWrite data => exact .issues _ (by rw [List.all_append, isPlain_xferWrite]; rfl)
  | busBusyRead | busDataRead => exact transferDoes_issueRead _ rfl s
  | tmrElapsed | tmrResetWait | snsRead | lcdInit | lcdSetDisplay | lcdClear | lcdHome | lcdSetAddress | lcdSetCursor
  | lcdWrite | lcdWriteRow | lcdRead | lcdReadRow | lcdIsBusy | lcdGetSettings => cases hi

/-! ### Which instructions the decoder gives -/

/-- What the decoder gives, if it is an instruction, is an operation of the host. -/
def GivesHostOp (r : Except Reject Instr) : Prop := ∀ i, r = .ok i → i.isHostOp = true

theorem givesHostOp_reservedZero (ok : Bool) {i : Instr} (hi : i.isHostOp = true) : GivesHostOp (reservedZero ok i) := by
  intro j h
  unfold reservedZero at h
  split at h
  · exact Except.ok.inj h ▸ hi
  · cases h

theorem GivesHostOp.ite {c : Prop} [Decidable c] {r r' : Except Reject Instr} (h : GivesHostOp r) (h' : GivesHostOp r') :
    GivesHostOp (if c then r else r') := by
  split
  · exact h
  · exact h'

/-- Every row of R63's map is an operation of the host. -/
theorem decodeCmd_isHostOp {w : Word} {i : Instr} (h : decodeCmd w = .ok i) : i.isHostOp = true := by
  suffices GivesHostOp (decodeCmd w) from this i h
  unfold decodeCmd
  iterate 15 refine .ite (givesHostOp_reservedZero _ rfl) ?_
  exact fun _ h => by cases h

/-- A transfer is none. -/
theorem decodeBus_isHostOp {w : BusWord} {i : Instr} (h : decodeBus w = .ok i) : i.isHostOp = false := by
  cases w with
  | busyr | datw | datr => cases h; rfl
  | nib n =>
    change decodeNibble n = _ at h
    unfold decodeNibble at h
    split_ifs at h <;> cases h <;> rfl
  | cmdw b =>
    change decodeCmdw b = _ at h
    unfold decodeCmdw at h
    split_ifs at h <;> cases h <;> rfl

/-! ### What a step does -/

/-- The state in which a step acts: the timer has moved, and the host's action, if there is one, is taken. -/
def takeInput (s : State) : State := { advanceTimer s with inputs := s.inputs.tail }

@[simp] theorem takeInput_par (s : State) : (takeInput s).par = s.par := advanceTimer_par s
@[simp] theorem takeInput_port (s : State) : (takeInput s).port = s.port := advanceTimer_port s
@[simp] theorem takeInput_sns (s : State) : (takeInput s).sns = s.sns := advanceTimer_sns s
@[simp] theorem takeInput_lcd (s : State) : (takeInput s).lcd = s.lcd := advanceTimer_lcd s
@[simp] theorem takeInput_cfg (s : State) : (takeInput s).cfg = s.cfg := advanceTimer_cfg s
@[simp] theorem takeInput_set (s : State) : (takeInput s).set = s.set := advanceTimer_set s
@[simp] theorem takeInput_phase (s : State) : (takeInput s).phase = s.phase := advanceTimer_phase s
@[simp] theorem takeInput_work (s : State) : (takeInput s).work = s.work := advanceTimer_work s
@[simp] theorem takeInput_obs (s : State) : (takeInput s).obs = s.obs := advanceTimer_obs s
@[simp] theorem takeInput_todo (s : State) : (takeInput s).todo = s.todo := advanceTimer_todo s
@[simp] theorem takeInput_inputs (s : State) : (takeInput s).inputs = s.inputs.tail := rfl

@[simp] theorem takeInput_ticks (s : State) : (takeInput s).env.ticks = s.env.ticks.tail := by
  change (drawTicks s).2.env.ticks = _
  rcases drawTicks_cases s with ⟨k, rest, hs, h⟩ | ⟨hs, h⟩ <;> rw [h, hs] <;> rfl

/-- What a step that answers a next state has done: nothing but the timer's move, or the release of an operation without jobs,
or the next job, or the next transfer; or the host has started an operation, or written an illegal word, ARG or a byte of
WBUF; or RST was asserted. -/
inductive StepDoes (s : State) : State → Prop where
  | idles (hb : s.port.opbusy = false) : StepDoes s (takeInput s)
  | releases (ht : s.todo = []) : StepDoes s (release (takeInput s))
  | job {j : Job} {js : List Job} {t : State} (hb : s.port.opbusy = true) (ht : s.todo = j :: js)
      (h : JobDoes (takeJob js (takeInput s)) j t) : StepDoes s t
  | transfer {w : BusWord} {js : List Job} {t : State} (hb : s.port.opbusy = true) (ht : s.todo = .transfer w :: js)
      (h : TransferDoes (takeJob js (takeInput s)) t) : StepDoes s t
  | command {w : Word} {i : Instr} {t : State} (hi : s.inputs.head? = some (.writeCmd w)) (hb : s.port.opbusy = false)
      (hd : decodeCmd w = .ok i) (h : CommandDoes (accept w (takeInput s)) i t) : StepDoes s t
  | illegalWord (w : Word) (hb : s.port.opbusy = false) : StepDoes s (rejectWord w (takeInput s))
  | writesArg (v : Word) (hb : s.port.opbusy = false) : StepDoes s (writeArg v (takeInput s))
  | writesWbuf (i : Nat) (v : Byte) (hi : s.inputs.head? = some (.writeWbuf i v)) (hb : s.port.opbusy = false) :
      StepDoes s (writeWbuf i v (takeInput s))
  | resets (hi : s.inputs.head? = some .rst) : StepDoes s (applyReset (takeInput s))

theorem yields_fetchJob_does (s : State) : Yields (StepDoes s) (fetchJob (takeInput s)).answer := by
  unfold fetchJob
  simp only [takeInput_port, takeInput_todo]
  split
  case isFalse hb => exact .idles (by simpa using hb)
  case isTrue hb =>
    split
    case h_1 ht => exact .releases ht
    case h_2 w js ht =>
      split
      case h_1 i hd =>
        exact (transferDoes_exec (decodeBus_isHostOp hd) _).mono fun _ => .transfer hb ht
      case h_2 => trivial
    case h_3 j js _ ht =>
      change Yields _ (jobStep j js (takeInput s))
      unfold jobStep
      split
      · trivial
      · exact .job hb ht (runJob_does j _)

theorem yields_fetchCmd_does {s : State} {w : Word} (hi : s.inputs.head? = some (.writeCmd w))
    (hb : s.port.opbusy = false) : Yields (StepDoes s) (fetchCmd w (takeInput s)).answer := by
  unfold fetchCmd
  split
  case h_1 i hd => exact (commandDoes_exec (decodeCmd_isHostOp hd) _).mono fun _ => .command hi hb hd
  case h_2 => exact .illegalWord w hb

theorem yields_fetchWbuf_does {s : State} {i : Nat} {v : Byte} (hi : s.inputs.head? = some (.writeWbuf i v))
    (hb : s.port.opbusy = false) : Yields (StepDoes s) (fetchWbuf i v (takeInput s)).answer := by
  unfold fetchWbuf
  split
  · exact .writesWbuf i v hi hb
  · trivial

/-- A write of the call port is fetched only while no operation runs (R20). -/
theorem yields_hostWrite_idle {P : State → Prop} {f : Fetched} {a : State} (h : a.port.opbusy = false → Yields P f.answer) :
    Yields P (hostWrite a f).answer := by
  unfold hostWrite
  split
  case isTrue => trivial
  case isFalse hb => exact h (by simpa using hb)

/-- With an action of the host at hand the step acts in the state that is without it. -/
theorem takeInput_eq {s : State} {x : Input} {rest : List Input} (hi : s.inputs = x :: rest) :
    { advanceTimer s with inputs := rest } = takeInput s := by rw [takeInput, hi]; rfl

theorem takeInput_eq_advanceTimer {s : State} (hi : s.inputs = []) : takeInput s = advanceTimer s := by
  have h := advanceTimer_inputs s
  rw [hi] at h
  rw [takeInput, hi, List.tail_nil, ← h]

/-- The inversion of a step. -/
theorem step_does {s t : State} (h : step s = .next t) : StepDoes s t := by
  suffices Yields (StepDoes s) (step s) from this.of_next h
  rw [step_eq_answer, fetch, fetchInput, advanceTimer_inputs]
  split
  case h_1 hi =>
    rw [← takeInput_eq_advanceTimer hi]
    exact yields_fetchJob_does s
  case h_2 rest hi =>
    rw [takeInput_eq hi]
    exact yields_fetchJob_does s
  case h_3 w rest hi =>
    rw [takeInput_eq hi]
    exact yields_hostWrite_idle fun hb => yields_fetchCmd_does (by rw [hi]; rfl) (by rwa [advanceTimer_port] at hb)
  case h_4 v rest hi =>
    rw [takeInput_eq hi]
    exact yields_hostWrite_idle fun hb => .writesArg v (by rwa [advanceTimer_port] at hb)
  case h_5 i v rest hi =>
    rw [takeInput_eq hi]
    exact yields_hostWrite_idle fun hb => yields_fetchWbuf_does (by rw [hi]; rfl) (by rwa [advanceTimer_port] at hb)
  case h_6 rest hi =>
    rw [takeInput_eq hi]
    exact .resets (by rw [hi]; rfl)

end Sys2Proof.Machine
end

section
/-! The invariants of the sensor pin, of PHASE and of the configuration: every step keeps them, and reset meets them
(spec/10_state.md R33, R41; spec/41_sensor.md R97; spec/43_lcd_ops.md R139). -/

namespace Sys2Proof.Machine

/-! ### The sensor pin -/

theorem Job.NeedsRest.atRest {j : Job} (hj : j.NeedsRest) {pin : SnsPin} {js : List Job} (h : snsJobs pin (j :: js) = true) :
    pin = snsAtRest ∧ snsJobs snsAtRest js = true := by
  rw [hj, Bool.and_eq_true, decide_eq_true_eq] at h
  obtain ⟨rfl, hjs⟩ := h
  exact ⟨rfl, hjs⟩

/-- A job leaves the pin as the jobs after it need it. -/
theorem JobDoes.keeps_snsJobs {s t : State} {j : Job} (h : JobDoes s j t) (hp : snsJobs s.sns (j :: s.todo) = true) :
    snsJobs t.sns t.todo = true := by
  cases h with
  | waits cnt log hj hjs =>
    rcases hjs with rfl | rfl
    · rwa [snsJobs_wait hj] at hp
    · exact hp
  | goesOn js work ac toflag env draws log hj hjs =>
    obtain ⟨hs, hrest⟩ := hj.atRest hp
    change snsJobs s.sns (js ++ s.todo) = true
    rw [hs, snsJobs_plain_append hjs, hrest]
  | fails st log hj =>
    obtain ⟨hs, -⟩ := hj.atRest hp
    change snsJobs s.sns [.raise st] = true
    rw [hs]
    rfl
  | ends st v work toflag draws hj => exact decide_eq_true (hj.atRest hp).1
  | endsInit st v work toflag draws => exact decide_eq_true (Job.NeedsRest.atRest (fun _ _ => rfl) hp).1
  | enters | configuresSns | drivesSns => exact hp
  | writesLcd lcd log hj hr =>
    obtain ⟨hs, hrest⟩ := hr.atRest hp
    change snsJobs s.sns s.todo = true
    rw [hs, hrest]
  | setsSettings | storesRead =>
    obtain ⟨hs, hrest⟩ := Job.NeedsRest.atRest (fun _ _ => rfl) hp
    change snsJobs s.sns s.todo = true
    rw [hs, hrest]

/-- A job that ends the operation leaves no job. -/
theorem JobDoes.todo_nil {s t : State} {j : Job} (h : JobDoes s j t) (hs : s.port.opbusy = true)
    (ht : t.port.opbusy = false) : t.todo = [] := by
  cases h with
  | ends | endsInit => rfl
  | _ => exact absurd (hs.symm.trans ht) (by decide)

theorem snsJobs_snsReadJobs (par : Params) : snsJobs snsAtRest (snsReadJobs par) = true := by
  unfold snsReadJobs
  rfl

theorem isPlain_initSets8 (par : Params) (fs : Byte) (left k : Nat) :
    (initSets8 par fs left k).all Job.isPlain = true := by
  induction left using Nat.twoStepInduction generalizing k with
  | zero | one => rfl
  | more left _ ih =>
    rw [initSets8, List.all_append, ih]
    rfl

theorem isPlain_initSets4 (par : Params) (left k : Nat) : (initSets4 par left k).all Job.isPlain = true := by
  induction left generalizing k with
  | zero => rfl
  | succ left ih =>
    rw [initSets4, List.all_append, ih]
    rfl

theorem isPlain_initFunctionSet (par : Params) (dl : Bool) (fs : Byte) :
    (initFunctionSet par dl fs).all Job.isPlain = true := by
  unfold initFunctionSet
  split
  · rw [List.all_append, isPlain_initSets8]
    rfl
  · simp only [List.all_append, isPlain_initSets4]
    rfl

/-- LCD.INIT's jobs are plain ones and then its end. -/
theorem initJobs_eq (par : Params) (dl : Bool) (fs : Byte) :
    ∃ js, js.all Job.isPlain = true ∧ initJobs par dl fs = js ++ [.initEnd] := by
  refine ⟨_, ?_, rfl⟩
  simp only [List.all_append, isPlain_initFunctionSet]
  rfl

/-- An operation that starts with the pin at rest leaves it as its jobs need it. -/
theorem CommandDoes.meets_snsJobs {s t : State} {i : Instr} (h : CommandDoes s i t) (hs : s.sns = snsAtRest) :
    snsJobs t.sns t.todo = true := by
  cases h with
  | @starts _ _ js _ _ _ hjs =>
    change snsJobs s.sns js = true
    rw [hs, ← List.append_nil js, snsJobs_plain_append hjs]
    rfl
  | startsInit cols f n dl =>
    change snsJobs s.sns (initJobs s.par dl (functionSetByte dl n f)) = true
    obtain ⟨js, hjs, e⟩ := initJobs_eq s.par dl (functionSetByte dl n f)
    rw [hs, e, snsJobs_plain_append hjs]
    rfl
  | startsSns =>
    change snsJobs s.sns (snsReadJobs s.par) = true
    rw [hs, snsJobs_snsReadJobs]

theorem CommandDoes.port {s t : State} {i : Instr} (h : CommandDoes s i t) : t.port = s.port := by cases h <;> rfl

theorem TransferDoes.port {s t : State} (h : TransferDoes s t) : t.port = s.port := by cases h <;> rfl

/-- A transfer puts jobs before the others, or a raise in their place, neither of which touches the pin. -/
theorem TransferDoes.keeps_snsJobs {s t : State} (h : TransferDoes s t) (hs : s.sns = snsAtRest)
    (hp : snsJobs snsAtRest s.todo = true) : snsJobs t.sns t.todo = true := by
  cases h with
  | issues js hjs =>
    change snsJobs s.sns (js ++ s.todo) = true
    rw [hs, snsJobs_plain_append hjs, hp]
  | fails =>
    change snsJobs s.sns [.raise .notSupported] = true
    rw [hs]
    rfl

/-- With no operation running the pin is at rest (R97). -/
theorem SensorPinSafe.atRest {s : State} (h : SensorPinSafe s) (hb : s.port.opbusy = false) : s.sns = snsAtRest := by
  obtain ⟨hp, ht⟩ := h
  rw [ht hb] at hp
  exact of_decide_eq_true hp

/-- Settles O22, over what a step can do (`step_does`): a job or a transfer leaves the pin as the jobs after it need it, and an
operation starts with the pin at rest. -/
theorem stepKeepsSensorPinSafe : Obligations.StepKeepsSensorPinSafe := by
  intro s t hs hstep
  have ⟨hp, hidle⟩ := hs
  cases step_does hstep with
  | idles hb => exact ⟨by simpa using hp, by simpa using hidle⟩
  | releases ht => exact ⟨by simpa using hp, fun _ => by simpa using ht⟩
  | job hb ht h =>
    rw [ht] at hp
    exact ⟨h.keeps_snsJobs (by simpa using hp), h.todo_nil (by simpa using hb)⟩
  | transfer hb ht h =>
    rw [ht] at hp
    obtain ⟨hrest, hjs⟩ := Job.NeedsRest.atRest (fun _ _ => rfl) hp
    exact ⟨h.keeps_snsJobs (by simpa using hrest) (by simpa using hjs), fun hb' => by simp [h.port, hb] at hb'⟩
  | command hi hb hd h => exact ⟨h.meets_snsJobs (by simpa using hs.atRest hb), fun hb' => by simp [h.port] at hb'⟩
  | illegalWord w hb =>
    refine ⟨?_, fun hb' => by simp at hb'⟩
    rw [rejectWord_sns, takeInput_sns, hs.atRest hb]
    rfl
  | writesArg v hb => exact ⟨by simpa using hp, by simpa using hidle⟩
  | writesWbuf i v hi hb => exact ⟨by simpa using hp, by simpa using hidle⟩
  | resets hi => exact ⟨by rfl, fun _ => rfl⟩

/-! ### PHASE and OPBUSY -/

theorem phase_next_eq_idle {p : Phase} : p.next = .idle ↔ p = .idle := by cases p <;> simp [Phase.next]

theorem entersNoIdle_plain_append {js : List Job} (h : js.all Job.isPlain = true) (rest : List Job) :
    entersNoIdle (js ++ rest) = entersNoIdle rest := by
  rw [entersNoIdle_append, entersNoIdle_of_plain h, Bool.true_and]

theorem entersNoIdle_cons {j : Job} {js : List Job} (h : entersNoIdle (j :: js) = true) :
    j ≠ .enter .idle ∧ entersNoIdle js = true := by
  simpa [entersNoIdle] using h

/-- A job of a running operation either leaves PHASE at a position of the operation, or ends the operation with IDLE. -/
theorem JobDoes.keeps_phaseMatchesBusy {s t : State} {j : Job} (h : JobDoes s j t) (hb : s.port.opbusy = true)
    (hph : s.phase ≠ .idle) (hj : j ≠ .enter .idle) (hjs : entersNoIdle s.todo = true) : PhaseMatchesBusy t := by
  have running : s.phase = .idle ↔ s.port.opbusy = false := iff_of_false hph (by simp [hb])
  cases h with
  | waits cnt log hw hback =>
    refine ⟨running, ?_⟩
    rcases hback with rfl | rfl
    · exact hjs
    · exact (Bool.and_eq_true ..).mpr ⟨decide_eq_true hj, hjs⟩
  | goesOn js work ac toflag env draws log hr hplain =>
    exact ⟨running, by rwa [entersNoIdle_plain_append hplain]⟩
  | fails => exact ⟨running, rfl⟩
  | ends | endsInit => exact ⟨iff_of_true rfl rfl, rfl⟩
  | enters p => exact ⟨iff_of_false (fun hp => hj (congrArg Job.enter hp)) (by simp [hb]), hjs⟩
  | configuresSns | drivesSns | writesLcd | setsSettings | storesRead => exact ⟨running, hjs⟩

theorem CommandDoes.meets_phaseMatchesBusy {s t : State} {i : Instr} (h : CommandDoes s i t) (hb : s.port.opbusy = true) :
    PhaseMatchesBusy t := by
  have running {p : Phase} (hp : p ≠ .idle) : p = .idle ↔ s.port.opbusy = false := iff_of_false hp (by simp [hb])
  cases h with
  | starts work toflag hp hjs => exact ⟨running hp, entersNoIdle_of_plain hjs⟩
  | startsInit cols f n dl =>
    obtain ⟨js, hjs, e⟩ := initJobs_eq s.par dl (functionSetByte dl n f)
    refine ⟨running (by simp), ?_⟩
    change entersNoIdle (initJobs s.par dl (functionSetByte dl n f)) = true
    rw [e, entersNoIdle_plain_append hjs]
    rfl
  | startsSns => exact ⟨running (by simp), rfl⟩

theorem TransferDoes.keeps_phaseMatchesBusy {s t : State} (h : TransferDoes s t) (hs : PhaseMatchesBusy s) :
    PhaseMatchesBusy t := by
  obtain ⟨hph, hjs⟩ := hs
  cases h with
  | issues js hplain => exact ⟨hph, by rwa [push_todo, entersNoIdle_plain_append hplain]⟩
  | fails => exact ⟨hph, rfl⟩

/-- Settles O23, over what a step can do (`step_does`). -/
theorem stepKeepsPhaseMatchesBusy : Obligations.StepKeepsPhaseMatchesBusy := by
  intro s t hs hstep
  have ⟨hph, hjs⟩ := hs
  have running (hb : s.port.opbusy = true) : s.phase ≠ .idle := fun hp => by simp [hph.1 hp] at hb
  cases step_does hstep with
  | idles hb => exact ⟨by simpa using hph, by simpa using hjs⟩
  | releases ht => exact ⟨by simp, by simpa using hjs⟩
  | job hb ht h =>
    rw [ht] at hjs
    obtain ⟨hj, hrest⟩ := entersNoIdle_cons hjs
    exact h.keeps_phaseMatchesBusy (by simpa using hb) (by simpa [phase_next_eq_idle] using running hb) hj
      (by simpa using hrest)
  | transfer hb ht h =>
    rw [ht] at hjs
    exact h.keeps_phaseMatchesBusy ⟨by simpa [phase_next_eq_idle] using hph, by simpa using (entersNoIdle_cons hjs).2⟩
  | command hi hb hd h => exact h.meets_phaseMatchesBusy (by simp)
  | illegalWord w hb => exact ⟨by simp, rfl⟩
  | writesArg v hb => exact ⟨by simpa using hph, by simpa using hjs⟩
  | writesWbuf i v hi hb => exact ⟨by simpa using hph, by simpa using hjs⟩
  | resets hi => exact ⟨iff_of_true rfl rfl, rfl⟩

/-! ### The configuration -/

/-- Fewer LCD.INITs ahead, with the same configuration. -/
theorem ConfigSafe.mono {s t : State} (h : ConfigSafe s) (hpar : t.par = s.par) (hcfg : t.cfg = s.cfg)
    (htodo : .initEnd ∈ t.todo → .initEnd ∈ s.todo) : ConfigSafe t := by
  intro hinit
  rw [hpar, hcfg]
  rw [hcfg] at hinit
  exact h (hinit.imp_right htodo)

theorem initEnd_mem_plain_append {js rest : List Job} (h : js.all Job.isPlain = true) (hm : .initEnd ∈ js ++ rest) :
    .initEnd ∈ rest :=
  (List.mem_append.1 hm).resolve_left (initEnd_notMem_of_plain h)

/-- A job that was ahead keeps the configuration's invariant; the end of an LCD.INIT sets INIT_DONE for the configuration that
was legal when it was ahead. -/
theorem JobDoes.keeps_configSafe {s t : State} {j : Job} (h : JobDoes s j t)
    (hs : ConfigSafe { s with todo := j :: s.todo }) : ConfigSafe t := by
  cases h with
  | waits cnt log hw hback =>
    refine hs.mono rfl rfl fun hm => ?_
    rcases hback with rfl | rfl
    · exact List.mem_cons_of_mem _ hm
    · exact hm
  | goesOn js work ac toflag env draws log hr hplain =>
    exact hs.mono rfl rfl fun hm => List.mem_cons_of_mem _ (initEnd_mem_plain_append hplain hm)
  | fails st log => exact hs.mono rfl rfl fun hm => absurd hm (by simp)
  | ends => exact hs.mono rfl rfl fun hm => absurd hm (List.not_mem_nil)
  | endsInit => exact fun _ => hs (.inr List.mem_cons_self)
  | enters | configuresSns | drivesSns | writesLcd | setsSettings | storesRead =>
    exact hs.mono rfl rfl (List.mem_cons_of_mem _)

theorem initEnd_notMem_snsReadJobs (par : Params) : .initEnd ∉ snsReadJobs par := by
  simp [snsReadJobs, idleCheckJobs, requestJobs, ackJobs, receiveJobs, waitForLevel, waitTicks, measurePulse]

/-- LCD.INIT starts with a legal configuration; any other operation leaves the configuration as it is. -/
theorem CommandDoes.keeps_configSafe {s t : State} {i : Instr} (h : CommandDoes s i t) (hs : ConfigSafe s) :
    ConfigSafe t := by
  cases h with
  | starts work toflag hp hjs => exact hs.mono rfl rfl fun hm => absurd hm (initEnd_notMem_of_plain hjs)
  | startsInit cols f n dl hlegal => exact fun _ => hlegal
  | startsSns => exact hs.mono rfl rfl fun hm => absurd hm (initEnd_notMem_snsReadJobs _)

theorem TransferDoes.keeps_configSafe {s t : State} (h : TransferDoes s t) (hs : ConfigSafe s) : ConfigSafe t := by
  cases h with
  | issues js hplain => exact hs.mono rfl rfl (initEnd_mem_plain_append hplain)
  | fails => exact hs.mono rfl rfl fun hm => absurd hm (by simp)

/-- Settles O24, over what a step can do (`step_does`). -/
theorem stepKeepsConfigSafe : Obligations.StepKeepsConfigSafe := by
  intro s t hs hstep
  cases step_does hstep with
  | idles hb => exact hs.mono (by simp) (by simp) (by simp)
  | releases ht => exact hs.mono (by simp) (by simp) (by simp)
  | job hb ht h => exact h.keeps_configSafe (hs.mono (by simp) (by simp) (by simp [ht]))
  | transfer hb ht h => exact h.keeps_configSafe (hs.mono (by simp) (by simp) (by simp [ht]))
  | command hi hb hd h => exact h.keeps_configSafe (hs.mono (by simp) (by simp) (by simp))
  | illegalWord w hb => exact hs.mono (by simp) (by simp) (by simp)
  | writesArg v hb => exact hs.mono (by simp) (by simp) (by simp)
  | writesWbuf i v hi hb => exact hs.mono (by simp) (by simp) (by simp)
  | resets hi => exact fun hinit => absurd hinit (by simp [applyReset, State.reset])

/-! ### Reset -/

/-- Settles O26: after reset no job is left, the pins are at rest and the buffers are empty. -/
theorem resetMeetsTheInvariants : Obligations.ResetMeetsTheInvariants := by
  have bus : BusOrdered State.reset := ⟨.idle, rfl, rfl, rfl, fun _ => rfl⟩
  have pin : SensorPinSafe State.reset := ⟨by decide, fun _ => rfl⟩
  have phase : PhaseMatchesBusy State.reset := ⟨iff_of_true rfl rfl, rfl⟩
  have config : ConfigSafe State.reset := fun h => absurd h (by simp [State.reset])
  have buffers : BuffersCanonical State.reset := ⟨rfl, rfl, rfl, rfl⟩
  exact ⟨bus, pin, phase, config, buffers⟩

end Sys2Proof.Machine
end

section
/-! Who writes the pins, STATUS, the configuration, the settings and the buffers (spec/10_state.md R24 to R30, R38, R47), the
elapsed value over a run (spec/40_timer.md R84), and the steps of the call port and of reset (spec/10_state.md R19, R20, R22,
R23, R41). -/

namespace Sys2Proof.Machine

/-! ### What no step but a job's and RST writes -/

/-- What only jobs and RST write. -/
structure Undisturbed (s t : State) : Prop where
  par : t.par = s.par
  sns : t.sns = s.sns
  lcd : t.lcd = s.lcd
  set : t.set = s.set
  obs : t.obs = s.obs
  status : t.port.status = s.port.status
  val : t.port.val = s.port.val
  rbuf : t.port.rbuf = s.port.rbuf
  inputs : t.inputs = s.inputs
  ticks : t.env.ticks = s.env.ticks

theorem CommandDoes.startsQuietly {s t : State} {i : Instr} (h : CommandDoes s i t) : StartsQuietly s t := by
  cases h <;> exact startsQuietly_update ..

theorem TransferDoes.startsQuietly {s t : State} (h : TransferDoes s t) : StartsQuietly s t := by
  cases h <;> exact startsQuietly_update ..

theorem StartsQuietly.undisturbed {s t : State} (h : StartsQuietly s t) : Undisturbed s t :=
  ⟨h.par, h.sns, h.lcd, h.set, h.obs, by rw [h.port], by rw [h.port], by rw [h.port], h.inputs, by rw [h.env]⟩

/-- A step is a job's, or RST, or writes none of the registers that these write. -/
theorem StepDoes.cases_job {s t : State} (h : StepDoes s t) (hr : s.inputs.head? ≠ some .rst) :
    (∃ j js, s.todo = j :: js ∧ JobDoes (takeJob js (takeInput s)) j t) ∨ Undisturbed (takeInput s) t := by
  cases h with
  | job hb ht h => exact .inl ⟨_, _, ht, h⟩
  | transfer hb ht h =>
    obtain ⟨h1, h2, h3, h4, h5, h6, h7, h8, h9, h10⟩ := h.startsQuietly.undisturbed
    exact .inr ⟨h1, h2, h3, h4, h5, h6, h7, h8, h9, h10⟩
  | command hi hb hd h =>
    obtain ⟨h1, h2, h3, h4, h5, h6, h7, h8, h9, h10⟩ := h.startsQuietly.undisturbed
    exact .inr ⟨h1, h2, h3, h4, h5, h6, h7, h8, h9, h10⟩
  | resets hi => exact absurd hi hr
  | idles | releases | illegalWord | writesArg | writesWbuf =>
    exact .inr ⟨rfl, rfl, rfl, rfl, rfl, rfl, rfl, rfl, rfl, rfl⟩

/-! ### The pins -/

theorem JobDoes.sns_writers {s t : State} {j : Job} (h : JobDoes s j t) (hne : t.sns ≠ s.sns) :
    (∃ m, j = .snsConfig m) ∨ ∃ v, j = .snsDrive v := by
  cases h with
  | configuresSns m => exact .inl ⟨m, rfl⟩
  | drivesSns v => exact .inr ⟨v, rfl⟩
  | _ => exact absurd rfl hne

theorem JobDoes.lcd_writers {s t : State} {j : Job} (h : JobDoes s j t) (hne : t.lcd ≠ s.lcd) : j.writesLcd = true := by
  cases h with
  | writesLcd lcd log hj => exact hj
  | _ => exact absurd rfl hne

theorem Job.writesLcd_cases {j : Job} (h : j.writesLcd = true) :
    (∃ v, j = .setRS v) ∨ (∃ v, j = .setRW v) ∨ (∃ v, j = .setE v) ∨ (∃ d, j = .setDDir d) ∨ ∃ v, j = .drive v := by
  cases j with
  | setRS | setRW | setE | setDDir | drive => simp
  | _ => cases h

/-- Settles O17: only jobs write the pins (`StepDoes.cases_job`), and of them only the pins' own. -/
theorem pinWriters : Obligations.PinWriters := by
  intro s t hstep hr
  rcases (step_does hstep).cases_job hr with ⟨j, js, ht, h⟩ | h
  · rw [ht, List.head?_cons]
    simp only [Option.some.injEq]
    exact ⟨fun hne => h.sns_writers (by simpa using hne),
      fun hne => Job.writesLcd_cases (h.lcd_writers (by simpa using hne))⟩
  · exact ⟨fun hne => absurd (h.sns.trans (takeInput_sns s)) hne, fun hne => absurd (h.lcd.trans (takeInput_lcd s)) hne⟩

/-! ### STATUS, VAL and the results -/

theorem zextByte_eq_append (v : Byte) : zextByte v = 0#24 ++ v := BitVec.setWidth_eq_append (by decide)

/-- A job leaves STATUS, VAL and the results, or ends the operation. -/
theorem JobDoes.result_writers {s t : State} {j : Job} (h : JobDoes s j t) :
    (t.obs.results = s.obs.results ∧ t.port.status = s.port.status ∧ t.port.val = s.port.val) ∨
      ∃ st v u, t = conclude st v u ∧ u.obs.results = s.obs.results := by
  cases h with
  | ends | endsInit => exact .inr ⟨_, _, _, rfl, rfl⟩
  | _ => exact .inl ⟨rfl, rfl, rfl⟩

/-- Settles O18: only jobs write STATUS, VAL and the results (`StepDoes.cases_job`), and of them only the operation's end. -/
theorem statusWriters : Obligations.StatusWriters := by
  intro s t hstep hr hne
  rcases (step_does hstep).cases_job hr with ⟨j, js, ht, h⟩ | h
  · rcases h.result_writers with ⟨hres, hst, hval⟩ | ⟨st, v, u, rfl, hu⟩
    · simp [hres, hst, hval] at hne
    · refine ⟨rfl, rfl, rfl, st.code_le, ?_⟩
      rw [conclude_result, hu, Port.result, zextByte_eq_append]
      simp
  · simp [h.obs, h.status, h.val] at hne

/-! ### The configuration and the settings -/

theorem JobDoes.cfg_writers {s t : State} {j : Job} (h : JobDoes s j t) (hne : t.cfg ≠ s.cfg) :
    j = .initEnd ∧ t.cfg = { s.cfg with initDone := true } := by
  cases h with
  | endsInit => exact ⟨rfl, rfl⟩
  | _ => exact absurd rfl hne

theorem JobDoes.set_writers {s t : State} {j : Job} (h : JobDoes s j t) (hne : t.set ≠ s.set) :
    (∃ d c b, j = .setSettings d c b ∧ t.set = ⟨d, c, b⟩) ∨ (j = .initEnd ∧ t.set = ⟨false, false, false⟩) := by
  cases h with
  | setsSettings d c b => exact .inl ⟨d, c, b, rfl, rfl⟩
  | endsInit => exact .inr ⟨rfl, rfl⟩
  | _ => exact absurd rfl hne

theorem CommandDoes.cfg_writers {s t : State} {i : Instr} (h : CommandDoes s i t) (hne : t.cfg ≠ s.cfg) :
    ∃ cols f n dl, i = .lcdInit cols f n dl ∧ configLegal s.par n cols = true ∧ t.cfg = ⟨dl, n, f, cols, false⟩ := by
  cases h with
  | startsInit cols f n dl hlegal => exact ⟨cols, f, n, dl, rfl, hlegal, rfl⟩
  | _ => exact absurd rfl hne

theorem TransferDoes.cfg {s t : State} (h : TransferDoes s t) : t.cfg = s.cfg := by cases h <;> rfl

/-- The configuration is written by an operation's start or by a job (R27). -/
theorem StepDoes.cfg_writers {s t : State} (h : StepDoes s t) (hr : s.inputs.head? ≠ some .rst) (hne : t.cfg ≠ s.cfg) :
    (∃ w cols f n dl, s.inputs.head? = some (.writeCmd w) ∧ decodeCmd w = .ok (.lcdInit cols f n dl) ∧
        configLegal s.par n cols = true ∧ t.cfg = ⟨dl, n, f, cols, false⟩) ∨
      (s.todo.head? = some .initEnd ∧ t.cfg = { s.cfg with initDone := true }) := by
  cases h with
  | job hb ht h =>
    obtain ⟨rfl, hcfg⟩ := h.cfg_writers (by simpa using hne)
    exact .inr ⟨by rw [ht]; rfl, by simpa using hcfg⟩
  | transfer hb ht h => exact absurd (h.cfg.trans (takeInput_cfg s)) hne
  | command hi hb hd h =>
    obtain ⟨cols, f, n, dl, rfl, hlegal, hcfg⟩ := h.cfg_writers (by simpa using hne)
    exact .inl ⟨_, cols, f, n, dl, hi, hd, by simpa using hlegal, hcfg⟩
  | resets hi => exact absurd hi hr
  | idles | releases | illegalWord | writesArg | writesWbuf => exact absurd (takeInput_cfg s) hne

/-- Settles O19, over what a step can do (`step_does`). -/
theorem configAndSettingsWriters : Obligations.ConfigAndSettingsWriters := by
  intro s t hstep hr
  refine ⟨(step_does hstep).cfg_writers hr, fun hne => ?_⟩
  rcases (step_does hstep).cases_job hr with ⟨j, js, ht, h⟩ | h
  · rw [ht, List.head?_cons]
    simp only [Option.some.injEq]
    exact h.set_writers (by simpa using hne)
  · exact absurd (h.set.trans (takeInput_set s)) hne

/-! ### The buffers -/

theorem JobDoes.rbuf_writers {s t : State} {j : Job} (h : JobDoes s j t) :
    t.port.rbuf = s.port.rbuf ∨ ∃ i, j = .storeRead i ∧ t.port.rbuf = s.port.rbuf.write i s.work.rx := by
  cases h with
  | storesRead i => exact .inr ⟨i, rfl, rfl⟩
  | _ => exact .inl rfl

theorem JobDoes.wbuf {s t : State} {j : Job} (h : JobDoes s j t) : t.port.wbuf = s.port.wbuf := by cases h <;> rfl

/-- WBUF is written by the host's write of WBUF alone (R47). -/
theorem StepDoes.wbuf_writers {s t : State} (h : StepDoes s t) (hr : s.inputs.head? ≠ some .rst) :
    (∃ i v, s.inputs.head? = some (.writeWbuf i v)) ∨ t.port.wbuf = s.port.wbuf := by
  cases h with
  | writesWbuf i v hi => exact .inl ⟨i, v, hi⟩
  | resets hi => exact absurd hi hr
  | job hb ht h => exact .inr (by simpa using h.wbuf)
  | transfer hb ht h => exact .inr (by rw [h.port]; simp)
  | command hi hb hd h => exact .inr (by rw [h.port]; simp)
  | idles | releases | illegalWord | writesArg => exact .inr (by simp)

/-- Settles O20: only a job writes RBUF (`StepDoes.cases_job`), and a read after its write gives the byte written. -/
theorem bufferWriters : Obligations.BufferWriters := by
  intro s t hstep hr hwf
  refine ⟨?_, ((step_does hstep).wbuf_writers hr).imp_right fun hw a => by rw [hw]⟩
  rcases (step_does hstep).cases_job hr with ⟨j, js, ht, h⟩ | h
  · rcases h.rbuf_writers with hrbuf | ⟨i, rfl, hrbuf⟩
    · exact .inl fun a => by simp [hrbuf]
    · have hread (a : Nat) : t.port.rbuf.read a = if a = i then s.work.rx else s.port.rbuf.read a := by
        simpa [hrbuf] using Memory.read_write hwf
      exact .inr ⟨i, by rw [ht]; rfl, by simp [hread], fun a ha => by simp [hread, ha]⟩
  · exact .inl fun a => by simp [h.rbuf]

/-! ### The elapsed value -/

theorem JobDoes.par {s t : State} {j : Job} (h : JobDoes s j t) : t.par = s.par := by cases h <;> rfl

theorem JobDoes.inputs {s t : State} {j : Job} (h : JobDoes s j t) : t.inputs = s.inputs := by cases h <;> rfl

theorem JobDoes.ticks {s t : State} {j : Job} (h : JobDoes s j t) : t.env.ticks = s.env.ticks := by
  cases h with
  | goesOn js work ac toflag env draws log hj hjs henv => exact henv
  | _ => rfl

/-- A step without RST takes one action of the host and one draw of the timer, where there are any, and keeps the parameters. -/
theorem step_keepsScripts {s t : State} (h : step s = .next t) (hr : s.inputs.head? ≠ some .rst) :
    t.par = s.par ∧ t.inputs = s.inputs.tail ∧ t.env.ticks = s.env.ticks.tail := by
  rcases (step_does h).cases_job hr with ⟨j, js, -, hj⟩ | hu
  · exact ⟨by simp [hj.par], by simp [hj.inputs], by simp [hj.ticks]⟩
  · exact ⟨by simp [hu.par], by simp [hu.inputs], by simp [hu.ticks]⟩

/-- A step without RST adds its events at the end of the log, and, unless TRESET is among them, its draw of ticks to CNT. -/
theorem step_count {s t : State} {k : Nat} {rest : List Nat} (h : step s = .next t) (hr : s.inputs.head? ≠ some .rst)
    (hk : s.env.ticks = k :: rest) :
    ∃ evs, t.obs.log = s.obs.log ++ evs ∧ (.treset ∉ evs → t.cnt.toNat ≡ s.cnt.toNat + k [MOD cntSpan s.par]) := by
  have hcount : (advanceTimer s).cnt.toNat ≡ s.cnt.toNat + k [MOD cntSpan s.par] := by
    rw [advanceTimer_cons hk]
    exact (congrArg (· % _) (later_toNat s.par s.cnt k)).trans (Nat.mod_mod ..)
  rw [← advanceTimer_obs s]
  rcases step_keepsCount h hr with ⟨hc, hl | ⟨ev, hl⟩⟩ | ⟨-, hl⟩
  · exact ⟨[], by rw [hl, List.append_nil], fun _ => by rwa [hc]⟩
  · exact ⟨[ev], hl, fun _ => by rwa [hc]⟩
  · exact ⟨[.treset], hl, fun hn => absurd List.mem_cons_self hn⟩

/-- A run without RST adds its events at the end of the log, and, unless TRESET is among them, its draws of ticks to CNT. -/
theorem runs_count (n : Nat) {s u : State} (h : runs n s = .next u) (hn : n ≤ s.env.ticks.length)
    (hr : ∀ x ∈ s.inputs, x ≠ .rst) :
    ∃ evs, u.obs.log = s.obs.log ++ evs ∧
      (.treset ∉ evs → u.cnt.toNat ≡ s.cnt.toNat + (s.env.ticks.take n).sum [MOD cntSpan s.par]) := by
  induction n generalizing s with
  | zero =>
    cases h
    exact ⟨[], (List.append_nil _).symm, fun _ => .refl _⟩
  | succ n ih =>
    obtain ⟨t, hstep, hrun⟩ := runs_head h
    obtain ⟨k, rest, hk⟩ := List.exists_cons_of_length_pos (Nat.lt_of_lt_of_le (Nat.succ_pos n) hn)
    have hhead : s.inputs.head? ≠ some .rst := fun hx => hr _ (List.mem_of_head? hx) rfl
    obtain ⟨hpar, hinputs, hticks⟩ := step_keepsScripts hstep hhead
    obtain ⟨evs, hl, hc⟩ := step_count hstep hhead hk
    rw [hk, List.length_cons] at hn
    rw [hk, List.tail_cons] at hticks
    obtain ⟨evs', hl', hc'⟩ := ih hrun (by rw [hticks]; omega) fun x hx =>
      hr x (List.mem_of_mem_tail (by rwa [hinputs] at hx))
    refine ⟨evs ++ evs', by rw [hl', hl, List.append_assoc], fun hnot => ?_⟩
    rw [List.mem_append, not_or] at hnot
    obtain ⟨hnot, hnot'⟩ := hnot
    have hlast := hc' hnot'
    rw [hpar, hticks] at hlast
    rw [hk, List.take_succ_cons, List.sum_cons, ← Nat.add_assoc]
    exact hlast.trans ((hc hnot).add_right _)

/-- The elapsed value of two counts that are `n` ticks apart, modulo CNT's span (R84). -/
theorem elapsed_toNat_of_modEq {par : Params} {now c : Word} {n : Nat}
    (h : now.toNat ≡ c.toNat + n [MOD cntSpan par]) : (elapsed par now c).toNat = n % cntSpan par := by
  rw [← elapsed_later_toNat par c n, elapsed, elapsed, wrapCnt_toNat, wrapCnt_toNat, BitVec.toNat_sub, BitVec.toNat_sub,
    Nat.mod_mod_of_dvd _ (cntSpan_dvd par), Nat.mod_mod_of_dvd _ (cntSpan_dvd par), later_toNat]
  exact (h.trans (Nat.mod_modEq ..).symm).add_left _

/-- Settles O14, by the induction over the run in `runs_count`. -/
theorem elapsedWrapLaw : Obligations.ElapsedWrapLaw := by
  intro n s u hrun hn hr hnoReset
  obtain ⟨evs, hl, hc⟩ := runs_count n hrun hn hr
  rw [hl, List.drop_left] at hnoReset
  exact elapsed_toNat_of_modEq (hc fun hm => hnoReset _ hm rfl)

/-! ### The call port and reset -/

/-- A step in which the host does nothing is the controller's part after the timer's move. -/
theorem step_no_input {s : State} (hi : s.inputs = []) : step s = (fetchJob (advanceTimer s)).answer := by
  rw [step_eq_answer, fetch, fetchInput, advanceTimer_inputs, hi]

theorem hostWrite_of_idle {a : State} (h : a.port.opbusy = false) (f : Fetched) : hostWrite a f = f := by
  simp [hostWrite, h]

/-- Settles O5, for either place where a step finds an instruction. -/
theorem stepRunsDecodedInstruction : Obligations.StepRunsDecodedInstruction := by
  refine ⟨fun s w rest i hi hb hd => ?_, fun s w js i hi hb ht hd => ?_⟩
  · rw [step_eq_answer, fetch, fetchInput, advanceTimer_inputs, hi]
    change (hostWrite _ (fetchCmd w { advanceTimer s with inputs := rest })).answer = _
    rw [hostWrite_of_idle (by simpa using hb), fetchCmd, show decodeCmd w = .ok i from hd]
    rfl
  · rw [step_no_input hi, fetchJob_transfer (by simpa using hb) (by simpa using ht) hd]
    rfl

/-- Settles O7: each of the three writes goes through `hostWrite`. -/
theorem hostWriteWhileBusyFaults : Obligations.HostWriteWhileBusyFaults := by
  intro s x rest hi hb hx
  have hfault (f : Fetched) : (hostWrite (advanceTimer s) f).answer = .fault .hostWroteWhileBusy := by
    rw [hostWrite, advanceTimer_port, if_pos hb]
    rfl
  rw [step_eq_answer, fetch, fetchInput, advanceTimer_inputs, hi]
  rcases hx with ⟨w, rfl⟩ | ⟨v, rfl⟩ | ⟨i, v, rfl⟩
  · exact hfault _
  · exact hfault _
  · exact hfault _

theorem step_writeArg {s : State} {v : Word} {rest : List Input} (hi : s.inputs = .writeArg v :: rest)
    (hb : s.port.opbusy = false) : step s = .next (writeArg v (takeInput s)) := by
  rw [step_eq_answer, fetch, fetchInput, advanceTimer_inputs, hi]
  change (hostWrite _ (.took (.next (writeArg v { advanceTimer s with inputs := rest })))).answer = _
  rw [hostWrite_of_idle (by simpa using hb), takeInput_eq hi]
  rfl

theorem step_writeWbuf {s : State} {i : Nat} {v : Byte} {rest : List Input} (hi : s.inputs = .writeWbuf i v :: rest)
    (hb : s.port.opbusy = false) (hsize : i < s.par.bufSize) : step s = .next (writeWbuf i v (takeInput s)) := by
  rw [step_eq_answer, fetch, fetchInput, advanceTimer_inputs, hi]
  change (hostWrite _ (fetchWbuf i v { advanceTimer s with inputs := rest })).answer = _
  rw [hostWrite_of_idle (by simpa using hb), takeInput_eq hi, fetchWbuf, if_pos (by simpa using hsize)]
  rfl

theorem step_rst {s : State} {rest : List Input} (hi : s.inputs = .rst :: rest) :
    step s = .next (applyReset (takeInput s)) := by
  rw [step_eq_answer, fetch, fetchInput, advanceTimer_inputs, hi, ← takeInput_eq hi]
  rfl

/-- Settles O8. -/
theorem hostWritesStand : Obligations.HostWritesStand := by
  intro s rest hb hwf
  refine ⟨fun v hi => ⟨_, step_writeArg hi hb, by simp, by simp, by simp, by simp⟩, fun i v hi hsize => ?_⟩
  have hread (a : Nat) : (s.port.wbuf.write i v).read a = if a = i then v else s.port.wbuf.read a := Memory.read_write hwf
  exact ⟨_, step_writeWbuf hi hb hsize, by simp, by simp, by simp, by simp, by simp [hread],
    fun a ha => by simp [hread, ha]⟩

/-- Settles O10: the controller has nothing to do, and what is left is the timer's move. -/
theorem idleStepIsTheTimers : Obligations.IdleStepIsTheTimers := by
  intro s hb hi
  obtain ⟨k, env, d, ha, hline, hpins⟩ := advanceTimer_spec s
  have hidle : fetchJob (advanceTimer s) = .took (.next (advanceTimer s)) := by simp [fetchJob, hb]
  refine ⟨k, env, d, ?_, hline, hpins⟩
  rw [step_no_input hi, hidle, ← ha]
  rfl

/-- Settles O11: RST is one step, whatever the state. -/
theorem resetDuringOperation : Obligations.ResetDuringOperation := by
  intro s rest hi
  refine ⟨_, step_rst hi, rfl, rfl, rfl, rfl, rfl, rfl, rfl, rfl, rfl, rfl, rfl, rfl, ?_, takeInput_par s⟩
  change (takeInput s).obs.pastRuns ++ [⟨(takeInput s).obs.log ++ [.reset], (takeInput s).obs.results⟩] = _
  rw [takeInput_obs]

/-- Settles O12: R41's values, one by one. -/
theorem resetValues : Obligations.ResetValues :=
  ⟨rfl, rfl, rfl, rfl, rfl, rfl, rfl, rfl, rfl, rfl⟩

end Sys2Proof.Machine
end

section
/-! Jobs in an environment that keeps pace (spec/42_lcd_bus.md R122): how what they do and what the log then shows compose, and
the bus cycle. -/

namespace Sys2Proof.Machine

/-! ### Jobs performed in an environment that keeps pace -/

/-- The state with the parts that every job of an LCD operation moves: the jobs ahead, PHASE, CNT, the timer's script and the
log. -/
def State.atPlace (s : State) (js : List Job) (ph : Phase) (c : Word) (ticks : List Nat) (log : List Event) : State :=
  { s with todo := js, phase := ph, cnt := c, env.ticks := ticks, obs.log := log }

/-- Before each step at least one tick passes, and not so many that CNT could wrap inside a wait. -/
def KeepsPace (par : Params) (ticks : List Nat) : Prop := ∀ k ∈ ticks, 1 ≤ k ∧ longestWait par + k < cntSpan par

/-- With a timer that keeps pace for `n` jobs, the jobs `js` of a running operation are performed, whatever jobs come after them:
the log goes on with what the items show, and `s` has become `t` but for the parts that every job moves. -/
structure Performs (n : Nat) (s : State) (js : List Job) (items : List Item) (t : State) : Prop where
  par : t.par = s.par
  inputs : t.inputs = s.inputs
  opbusy : t.port.opbusy = s.port.opbusy
  runs : s.inputs = [] → s.port.opbusy = true → ∀ rest ph c ticks log, n * (longestWait s.par + 2) ≤ ticks.length →
    KeepsPace s.par ticks → ∃ k ph' c' evs, k ≤ n * (longestWait s.par + 2) ∧
      runs k (s.atPlace (js ++ rest) ph c ticks log) = .next (t.atPlace rest ph' c' (ticks.drop k) (log ++ evs)) ∧
      shows evs items = true

theorem Performs.nil (s : State) : Performs 0 s [] [] s where
  par := rfl
  inputs := rfl
  opbusy := rfl
  runs _ _ rest ph c ticks log _ _ := ⟨0, ph, c, [], Nat.zero_le _, by rw [List.append_nil]; rfl, rfl⟩

theorem Performs.mono {n m : Nat} {s t : State} {js : List Job} {items : List Item} (h : Performs n s js items t)
    (hn : n ≤ m) : Performs m s js items t where
  par := h.par
  inputs := h.inputs
  opbusy := h.opbusy
  runs hi hb rest ph c ticks log hlen hk := by
    have hle := Nat.mul_le_mul_right (longestWait s.par + 2) hn
    obtain ⟨k, ph', c', evs, hk', hrun⟩ := h.runs hi hb rest ph c ticks log (Nat.le_trans hle hlen) hk
    exact ⟨k, ph', c', evs, Nat.le_trans hk' hle, hrun⟩

/-- The same items, written in another way. -/
theorem Performs.of_items_eq {n : Nat} {s t : State} {js : List Job} {items items' : List Item}
    (h : Performs n s js items t) (e : items = items') : Performs n s js items' t := e ▸ h

theorem Performs.trans {n m : Nat} {s t u : State} {js js' : List Job} {items items' : List Item}
    (h : Performs n s js items t) (h' : Performs m t js' items' u) :
    Performs (n + m) s (js ++ js') (items ++ items') u where
  par := h'.par.trans h.par
  inputs := h'.inputs.trans h.inputs
  opbusy := h'.opbusy.trans h.opbusy
  runs hi hb rest ph c ticks log hlen hk := by
    rw [Nat.add_mul] at hlen ⊢
    obtain ⟨k, ph₁, c₁, evs, hle, hrun, hshows⟩ := h.runs hi hb (js' ++ rest) ph c ticks log (by omega) hk
    have hlen' : m * (longestWait t.par + 2) ≤ (ticks.drop k).length := by
      rw [h.par, List.length_drop]
      omega
    have hk' : KeepsPace t.par (ticks.drop k) := by
      rw [h.par]
      exact fun x hx => hk x (List.mem_of_mem_drop hx)
    obtain ⟨k', ph₂, c₂, evs', hle', hrun', hshows'⟩ := h'.runs (h.inputs.trans hi) (h.opbusy.trans hb) rest ph₁ c₁
      (ticks.drop k) (log ++ evs) hlen' hk'
    rw [h.par] at hle'
    refine ⟨k + k', ph₂, c₂, evs ++ evs', by omega, ?_, shows_append hshows hshows'⟩
    rw [List.append_assoc, runs_add hrun, hrun', List.drop_drop, List.append_assoc]

/-- A state that keeps pace and has the jobs ahead performs them. -/
theorem Performs.run {n : Nat} {s t : State} {js rest : List Job} {items : List Item} (h : Performs n s js items t)
    (hp : Paced n s) (ht : s.todo = js ++ rest) :
    ∃ k ph c evs, Machine.runs k s = .next (t.atPlace rest ph c (s.env.ticks.drop k) (s.obs.log ++ evs)) ∧
      shows evs items = true := by
  obtain ⟨hi, hb, hlen, hk⟩ := hp
  obtain ⟨k, ph, c, evs, -, hrun, hshows⟩ := h.runs hi hb rest s.phase s.cnt s.env.ticks s.obs.log hlen hk
  rw [← ht] at hrun
  exact ⟨k, ph, c, evs, hrun, hshows⟩

/-- One job that appends what the items show and changes `s` to `t`. -/
theorem performs_job {s t : State} {j : Job} {evs : List Event} {items : List Item} (hpar : t.par = s.par)
    (hinputs : t.inputs = s.inputs) (hopbusy : t.port.opbusy = s.port.opbusy) (hj : ∀ w, j ≠ .transfer w)
    (ho : ∀ u, outsideBuffer u j = false)
    (h : ∀ js ph c ticks log, runJob j (s.atPlace js ph c ticks log) = t.atPlace js ph c ticks (log ++ evs))
    (hshows : shows evs items = true) : Performs 1 s [j] items t where
  par := hpar
  inputs := hinputs
  opbusy := hopbusy
  runs hi hb rest ph c ticks log hlen hk := by
    obtain ⟨k, ticks, rfl⟩ := List.exists_cons_of_length_pos (show 0 < ticks.length by omega)
    have hstep := step_job (s := s.atPlace (j :: rest) ph c (k :: ticks) log) hi hb rfl rfl hj (ho _)
    exact ⟨1, ph.next, wrapCnt s.par (c + BitVec.ofNat 32 k), evs, by omega,
      (runs_succ hstep 0).trans (congrArg _ (h rest ph.next _ ticks log)), hshows⟩

/-- A wait no longer than the longest is performed with no other change (R87). -/
theorem performs_wait (s : State) {n : Word} (hn : n.toNat ≤ longestWait s.par) :
    Performs 1 s (waitTicks n) [.wait n] s where
  par := rfl
  inputs := rfl
  opbusy := rfl
  runs hi hb rest ph c ticks log hlen hk := by
    obtain ⟨k, ph', c', evs, hle, hrun, hshows⟩ := runs_wait n rest (s.atPlace (waitTicks n ++ rest) ph c ticks log) hi hb rfl
      (show n.toNat + 2 ≤ ticks.length by omega) fun x hx => by
        obtain ⟨hpos, hspan⟩ := hk x hx
        exact ⟨hpos, show n.toNat + x < cntSpan s.par by omega⟩
    exact ⟨k, ph', c', evs, by omega, hrun, hshows⟩

/-! ### The bus cycle -/

section

variable (s : State)

theorem performs_setRS (v : Bool) : Performs 1 s [.setRS v] [.ev (.rs v)] { s with lcd.rs := v } :=
  performs_job rfl rfl rfl (by simp) (fun _ => rfl) (fun _ _ _ _ _ => rfl) (shows_ev _)

theorem performs_setRW (v : Bool) : Performs 1 s [.setRW v] [.ev (.rw v)] { s with lcd.rw := v } :=
  performs_job rfl rfl rfl (by simp) (fun _ => rfl) (fun _ _ _ _ _ => rfl) (shows_ev _)

theorem performs_setDDir (d : Dir) : Performs 1 s [.setDDir d] [.ev (.ddir d)] { s with lcd.ddir := d } :=
  performs_job rfl rfl rfl (by simp) (fun _ => rfl) (fun _ _ _ _ _ => rfl) (shows_ev _)

theorem performs_setE (v : Bool) : Performs 1 s [.setE v] [.ev (.e v)] { s with lcd.e := v } :=
  performs_job rfl rfl rfl (by simp) (fun _ => rfl) (fun _ _ _ _ _ => rfl) (shows_ev _)

theorem performs_drive (v : DataVal) : Performs 1 s [.drive v] [.ev (.d v)] { s with lcd.dout := driven s.lcd.dout v } :=
  performs_job rfl rfl rfl (by simp) (fun _ => rfl) (fun _ _ _ _ _ => rfl) (shows_ev _)

/-- A sample takes the next draw of the controller into its lane of the byte being read (R134). -/
theorem performs_sample (lane : Lane) {p : Byte} {ps : List Byte} (hp : s.env.pins = p :: ps) :
    Performs 1 s [.sample lane] [.ev (.dsample (sampled p lane))]
      { s with work.rx := collected s.work.rx p lane, env.pins := ps } := by
  refine performs_job (evs := [.dsample (sampled p lane)]) rfl rfl rfl (by simp) (fun _ => rfl)
    (fun js ph c ticks log => ?_) (shows_ev _)
  have hdraw : drawPins (s.atPlace js ph c ticks log) =
      (p, { s.atPlace js ph c ticks log with env.pins := ps }) := by
    simp only [drawPins, State.atPlace, hp]
  simp only [runJob, runSample, hdraw]
  rfl

/-- RW is set where there is an RW pin (R122). -/
theorem performs_setRwIfPresent (rw : Bool) :
    Performs 1 s (setRwIfPresent s.par rw) (if s.par.hasRw then [.ev (.rw rw)] else [])
      { s with lcd.rw := if s.par.hasRw then rw else s.lcd.rw } := by
  unfold setRwIfPresent
  split
  · exact performs_setRW s rw
  · exact (Performs.nil s).mono (Nat.zero_le 1)

end

theorem tSp_le_longestWait (par : Params) : par.tSp.toNat ≤ longestWait par := by unfold longestWait; omega

theorem tPw_le_longestWait (par : Params) : par.tPw.toNat ≤ longestWait par := by unfold longestWait; omega

theorem tCyc_le_longestWait (par : Params) : par.tCyc.toNat ≤ longestWait par := by unfold longestWait; omega

/-- RS, settle, RW and the direction, settle (R122). -/
theorem performs_beforeEnable (s : State) (rs rw : Bool) :
    Performs 5 s (beforeEnable s.par rs rw)
      ([.ev (.rs rs), .wait s.par.tSp] ++ (if s.par.hasRw then [.ev (.rw rw)] else []) ++
        [.ev (.ddir (if rw then .inp else .out)), .wait s.par.tSp])
      { s with lcd := ⟨rs, if s.par.hasRw then rw else s.lcd.rw, s.lcd.e, if rw then .inp else .out, s.lcd.dout⟩ } :=
  have settled := (performs_setRS s rs).trans (performs_wait _ (tSp_le_longestWait s.par))
  have directed := (settled.trans (performs_setRwIfPresent _ rw)).trans (performs_setDDir _ (if rw then .inp else .out))
  (directed.trans (performs_wait _ (tSp_le_longestWait s.par))).of_items_eq (List.append_assoc ..)

/-- BusCycle(rs, 0, v) (R122): the pins as it leaves them, and nothing else changed. -/
theorem performs_busCycleWrite (s : State) (rs : Bool) (v : DataVal) :
    Performs 10 s (busCycleWrite s.par rs v) (writeCycleItems s.par rs v)
      { s with lcd := ⟨rs, if s.par.hasRw then false else s.lcd.rw, false, .out, driven s.lcd.dout v⟩ } :=
  have applied := (performs_beforeEnable s rs false).trans ((performs_setE _ true).trans (performs_drive _ v))
  have held := applied.trans (performs_wait _ (tPw_le_longestWait s.par))
  ((held.trans (performs_setE _ false)).trans (performs_wait _ (tCyc_le_longestWait s.par))).of_items_eq
    (by simp [writeCycleItems])

/-- BusCycle(rs, 1, -) with an RW pin (R122): the pins as it leaves them, one draw of the controller in its lane of the byte
being read, and nothing else changed. -/
theorem performs_busCycleRead {s : State} (rs : Bool) (lane : Lane) {p : Byte} {ps : List Byte} (hrw : s.par.hasRw = true)
    (hp : s.env.pins = p :: ps) :
    Performs 10 s (busCycleRead s.par rs lane) (readCycleItems s.par rs (sampled p lane))
      { s with
        lcd := ⟨rs, true, false, .inp, s.lcd.dout⟩, work.rx := collected s.work.rx p lane, env.pins := ps } := by
  have before := performs_beforeEnable s rs true
  simp only [hrw, if_true] at before
  have held := (before.trans (performs_setE _ true)).trans (performs_wait _ (tPw_le_longestWait s.par))
  have taken := (performs_sample { s with lcd := ⟨rs, true, true, .inp, s.lcd.dout⟩ } lane hp).trans (performs_setE _ false)
  exact (held.trans taken).trans (performs_wait _ (tCyc_le_longestWait s.par))

/-! ### The obligations -/

theorem Paced.mono {n m : Nat} {s : State} (h : Paced m s) (hn : n ≤ m) : Paced n s := by
  obtain ⟨hi, hb, hlen, hk⟩ := h
  exact ⟨hi, hb, Nat.le_trans (Nat.mul_le_mul_right _ hn) hlen, hk⟩

/-- A nibble driven stands in DOUT[7:4], and DOUT[3:0] is kept (R26, R134). -/
theorem driven_nibble (old : Byte) (n : BitVec 4) :
    (driven old (.nibble n)).extractLsb' 4 4 = n ∧ (driven old (.nibble n)).extractLsb' 0 4 = old.extractLsb' 0 4 :=
  ⟨BitVec.extractLsb'_append_eq_left, BitVec.extractLsb'_append_eq_right⟩

/-- Settles O37, with the cycle's jobs performed one after another (`performs_busCycleWrite`). -/
theorem writeCycleEvents : Obligations.WriteCycleEvents := by
  intro s rs v js hpaced ht
  obtain ⟨k, ph, c, evs, hrun, hshows⟩ := (performs_busCycleWrite s rs v).run (hpaced.mono (by decide)) ht
  refine ⟨k, _, evs, hrun, rfl, ⟨rfl, rfl, rfl, rfl, rfl, rfl, rfl, rfl, rfl, rfl, rfl⟩, rfl, rfl, rfl, rfl, rfl, ?_, ?_, rfl,
    hshows⟩
  · rintro b rfl
    rfl
  · rintro n rfl
    exact driven_nibble s.lcd.dout n

theorem sampled_eq (p : Byte) (lane : Lane) :
    sampled p lane = if lane = .full then .byte p else .nibble (p.extractLsb' 4 4) := by cases lane <;> rfl

/-- Settles O38, with the cycle's jobs performed one after another (`performs_busCycleRead`). -/
theorem readCycleEvents : Obligations.ReadCycleEvents := by
  intro s rs lane p ps js hpaced hrw hpins ht
  obtain ⟨k, ph, c, evs, hrun, hshows⟩ := (performs_busCycleRead rs lane hrw hpins).run (hpaced.mono (by decide)) ht
  rw [sampled_eq] at hshows
  exact ⟨k, _, evs, hrun, rfl, ⟨rfl, rfl, rfl, rfl, rfl, rfl, rfl, rfl, rfl, rfl, rfl⟩, rfl, rfl, rfl, rfl, rfl, hshows⟩

end Sys2Proof.Machine
end

section
/-! The byte buffers (spec/20_memory.md R43, R46, R47): every step keeps them in canonical form and inside BUF_SIZE, an access
outside is a fault, and a cursor position's address fits in seven bits. -/

namespace Sys2Proof.Machine

/-! ### The buffers' invariant -/

theorem BuffersCanonical.congr {s t : State} (h : BuffersCanonical s) (hpar : t.par = s.par)
    (hw : t.port.wbuf = s.port.wbuf) (hr : t.port.rbuf = s.port.rbuf) : BuffersCanonical t := by
  unfold BuffersCanonical
  rw [hpar, hw, hr]
  exact h

theorem BuffersCanonical.writeWbuf {s : State} (h : BuffersCanonical s) {i : Nat} (hi : i < s.par.bufSize) (v : Byte) :
    BuffersCanonical (writeWbuf i v s) := by
  obtain ⟨hw, hr, hwin, hrin⟩ := h
  exact ⟨Memory.write_wf hw, hr, Memory.write_within hi hwin, hrin⟩

theorem BuffersCanonical.runStoreRead {s : State} (h : BuffersCanonical s) {i : Nat} (hi : i < s.par.bufSize) :
    BuffersCanonical (runStoreRead i s) := by
  obtain ⟨hw, hr, hwin, hrin⟩ := h
  exact ⟨hw, Memory.write_wf hr, hwin, Memory.write_within hi hrin⟩

theorem outsideBuffer_storeRead (s : State) (i : Nat) : outsideBuffer s (.storeRead i) = decide (s.par.bufSize ≤ i) := rfl

/-- A job inside the buffers keeps the invariant: LCD.READ_ROW's store writes inside RBUF, and no other job writes a buffer. -/
theorem JobDoes.keeps_buffersCanonical {s t : State} {j : Job} (h : JobDoes s j t) (hs : BuffersCanonical s)
    (ho : outsideBuffer s j = false) : BuffersCanonical t := by
  have hpar := h.par
  have hwbuf := h.wbuf
  cases h with
  | storesRead i =>
    rw [outsideBuffer_storeRead, decide_eq_false_iff_not, Nat.not_le] at ho
    exact hs.runStoreRead ho
  | _ => exact hs.congr hpar hwbuf rfl

/-- An instruction's meaning touches neither the call port nor the parameters. -/
theorem BuffersCanonical.exec {s t : State} (h : BuffersCanonical s) {i : Instr} (hexec : exec i s = .next t) :
    BuffersCanonical t := by
  have quiet := (yields_exec i s).of_next hexec
  exact h.congr quiet.par (by rw [quiet.port]) (by rw [quiet.port])

/-- Settles O25, over what a step can do (`step_cases`): a write of a byte outside its buffer is no step. -/
theorem stepKeepsBuffersCanonical : Obligations.StepKeepsBuffersCanonical := by
  intro s t hs hstep
  have moved (inputs : List Input) : BuffersCanonical { advanceTimer s with inputs := inputs } :=
    hs.congr (advanceTimer_par s) (by simp) (by simp)
  rcases step_cases hstep with ⟨a, ha, hcase⟩ | ⟨a, ha, hcase⟩
  · have acting : BuffersCanonical a := by
      rcases ha with rfl | rfl
      · exact moved (advanceTimer s).inputs
      · exact moved _
    rcases hcase with ⟨-, rfl⟩ | ⟨-, -, rfl⟩ | ⟨j, js, -, -, -, ho, rfl⟩ | ⟨w, i, js, -, -, -, hexec⟩
    · exact acting
    · exact acting.congr rfl rfl rfl
    · have taken : BuffersCanonical (takeJob js a) := acting.congr rfl rfl rfl
      exact (runJob_does j _).keeps_buffersCanonical taken ((outsideBuffer_congr rfl rfl j).trans ho)
    · exact BuffersCanonical.exec (s := takeJob js a) (acting.congr rfl rfl rfl) hexec
  · have acting : BuffersCanonical a := ha ▸ moved _
    rcases hcase with ⟨w, i, -, -, hexec⟩ | ⟨w, r, -, -, rfl⟩ | ⟨v, -, rfl⟩ | ⟨i, v, -, hi, rfl⟩ | rfl
    · exact BuffersCanonical.exec (s := accept w a) (acting.congr rfl rfl rfl) hexec
    · exact acting.congr rfl rfl rfl
    · exact acting.congr rfl rfl rfl
    · exact acting.writeWbuf hi v
    · exact ⟨rfl, rfl, rfl, rfl⟩

/-! ### Accesses outside a buffer -/

theorem outsideBuffer_writeNext (s : State) (i : Nat) :
    outsideBuffer s (.writeNext i) = (decide (i < s.work.nXfer.toNat) && decide (s.par.bufSize ≤ i)) := by
  by_cases h : i < s.work.nXfer.toNat <;> simp [outsideBuffer, bufferIndex, h]

/-- A job that would access a byte outside its buffer is a fault. -/
theorem step_outsideBuffer {s : State} {j : Job} {js : List Job} (hi : s.inputs = []) (hb : s.port.opbusy = true)
    (ht : s.todo = j :: js) (hj : ∀ w, j ≠ .transfer w) (ho : outsideBuffer s j = true) : step s = .fault .outsideBuffer := by
  have ho' : outsideBuffer (advanceTimer s) j = true :=
    (outsideBuffer_congr (advanceTimer_par s) (advanceTimer_work s) j).trans ho
  rw [step_no_input hi, fetchJob_cons (by simpa using hb) (by simpa using ht) hj, jobStep, ho']
  rfl

/-- With BUF_SIZE = 256 the loop of a row operation accesses no byte outside a buffer, since N_XFER is a u8. -/
theorem outsideBuffer_row {s : State} {i : Nat} {j : Job} (hsize : s.par.bufSize = 256)
    (hj : j = .writeNext i ∨ j = .readNext i ∨ (j = .storeRead i ∧ i < s.work.nXfer.toNat)) : outsideBuffer s j = false := by
  have hbyte := s.work.nXfer.isLt
  rcases hj with rfl | rfl | ⟨rfl, hlt⟩
  · rw [outsideBuffer_writeNext, ← Bool.decide_and, decide_eq_false_iff_not]
    omega
  · rfl
  · rw [outsideBuffer_storeRead, decide_eq_false_iff_not]
    omega

/-- Settles O9. -/
theorem accessOutsideBufferFaults : Obligations.AccessOutsideBufferFaults := by
  refine ⟨fun s i v rest hi hb hsize => ?_, fun s i js hi hb hsize ht => ?_, fun s i js hi hb hsize ht => ?_⟩
  · rw [step_eq_answer, fetch, fetchInput, advanceTimer_inputs, hi]
    change (hostWrite _ (fetchWbuf i v { advanceTimer s with inputs := rest })).answer = _
    rw [hostWrite_of_idle (by simpa using hb), takeInput_eq hi, fetchWbuf, if_neg (by simpa using hsize)]
    rfl
  · rcases ht with ht | ⟨ht, hlt⟩
    · exact step_outsideBuffer hi hb ht (by simp) (decide_eq_true hsize)
    · exact step_outsideBuffer hi hb ht (by simp) (by simp [outsideBuffer_writeNext, hlt, hsize])
  · have runs {j : Job} (ht : s.todo = j :: js) (hj : ∀ w, j ≠ .transfer w) (ho : outsideBuffer s j = false) :
        ∃ t, step s = .next t := ⟨_, step_job_advance hi hb ht hj ho⟩
    rcases ht with ht | ht | ⟨ht, hlt⟩
    · exact runs ht (by simp) (outsideBuffer_row hsize (.inl rfl))
    · exact runs ht (by simp) (outsideBuffer_row hsize (.inr (.inl rfl)))
    · exact runs ht (by simp) (outsideBuffer_row hsize (.inr (.inr ⟨rfl, hlt⟩)))

/-! ### Cursor addresses -/

theorem cursorInBounds_iff (cfg : LcdConfig) (row col : Byte) :
    cursorInBounds cfg row col = true ↔ row.toNat < rows cfg.n ∧ col.toNat < cfg.cols.toNat := by
  simp [cursorInBounds]

theorem configLegal_iff (par : Params) (n : Bool) (cols : Byte) :
    configLegal par n cols = true ↔ 1 ≤ cols.toNat ∧ par.rowOffset0.toNat + cols.toNat ≤ 0x80 ∧
      (n = true → par.rowOffset1.toNat + cols.toNat ≤ 0x80) := by
  cases n <;> simp [configLegal, rowFits, and_assoc]

theorem rowOffset_eq (par : Params) (row : Byte) :
    rowOffset par row = if row.toNat = 0 then par.rowOffset0 else par.rowOffset1 := by
  unfold rowOffset
  exact if_congr (by rw [← BitVec.toNat_inj]; rfl) rfl rfl

/-- An in-bounds position's row fits in the address space, and so the address does not wrap (R46, R141). -/
theorem cursorAddr_toNat {par : Params} {cfg : LcdConfig} {row col : Byte} (hlegal : configLegal par cfg.n cfg.cols = true)
    (hin : cursorInBounds cfg row col = true) :
    (cursorAddr par row col).toNat = (rowOffset par row).toNat + col.toNat ∧ (cursorAddr par row col).toNat < 0x80 := by
  obtain ⟨-, hfirst, hsecond⟩ := (configLegal_iff ..).1 hlegal
  obtain ⟨hrow, hcol⟩ := (cursorInBounds_iff ..).1 hin
  have hfits : (rowOffset par row).toNat + cfg.cols.toNat ≤ 0x80 := by
    rw [rowOffset_eq]
    split
    case isTrue => exact hfirst
    case isFalse hne =>
      refine hsecond ?_
      by_contra hn
      rw [rows, if_neg hn] at hrow
      omega
  rw [cursorAddr, BitVec.toNat_add]
  omega

/-- Settles O48. -/
theorem cursorAddressFits : Obligations.CursorAddressFits := by
  refine ⟨fun _ _ => ⟨rfl, rfl⟩, fun par cfg row col h0 h1 hlegal hin => ?_⟩
  have haddr := cursorAddr_toNat hlegal hin
  rwa [rowOffset_eq, h0, h1, apply_ite BitVec.toNat] at haddr

end Sys2Proof.Machine
end

section
/-! Transfers and waits until ready in an environment that keeps pace (spec/42_lcd_bus.md R123 to R132): what the block then does
is what the course of its rule says. -/

namespace Sys2Proof.Machine

/-! ### A job that puts jobs back, and a transfer -/

/-- With no action of the host and a scripted timer, a step runs the next transfer as the instruction it decodes to. -/
theorem step_transfer {s : State} {w : BusWord} {i : Instr} {js : List Job} {k : Nat} {rest : List Nat} (hi : s.inputs = [])
    (hb : s.port.opbusy = true) (ht : s.todo = .transfer w :: js) (hk : s.env.ticks = k :: rest)
    (hd : decodeBus w = .ok i) : step s = exec i (ready k rest js s) := by
  rw [stepRunsDecodedInstruction.2 s w js i hi hb ht hd, advanceTimer_cons hk]
  rfl

/-- What a silent step of a running operation does to the parts that every job moves: it takes the job `j`, puts the jobs `js` in
its place, and changes `s` to `s'`. -/
def Unfolds (s : State) (j : Job) (js : List Job) (s' : State) : Prop :=
  s.inputs = [] → s.port.opbusy = true → ∀ rest ph c k ticks log,
    step (s.atPlace (j :: rest) ph c (k :: ticks) log) =
      .next (s'.atPlace (js ++ rest) ph.next (later s.par c k) ticks log)

/-- A job that is no transfer and accesses no byte outside a buffer unfolds as its meaning says. -/
theorem unfolds_job {s s' : State} {j : Job} {js : List Job} (hj : ∀ w, j ≠ .transfer w) (ho : outsideBuffer s j = false)
    (h : ∀ rest ph c ticks log, runJob j (s.atPlace rest ph c ticks log) = s'.atPlace (js ++ rest) ph c ticks log) :
    Unfolds s j js s' := by
  intro hi hb rest ph c k ticks log
  have ho' := (outsideBuffer_congr (s := s.atPlace (j :: rest) ph c (k :: ticks) log) (t := s) rfl rfl j).trans ho
  exact (step_job (s := s.atPlace (j :: rest) ph c (k :: ticks) log) hi hb rfl rfl hj ho').trans
    (congrArg _ (h rest ph.next (later s.par c k) ticks log))

/-- A transfer unfolds into the jobs that its instruction puts before the others. -/
theorem unfolds_transfer {s : State} {w : BusWord} {i : Instr} {js : List Job} (hd : decodeBus w = .ok i)
    (h : ∀ u, u.par = s.par → u.cfg = s.cfg → exec i u = .next (push js u)) : Unfolds s (.transfer w) js s := by
  intro hi hb rest ph c k ticks log
  exact (step_transfer (s := s.atPlace (.transfer w :: rest) ph c (k :: ticks) log) hi hb rfl rfl hd).trans (h _ rfl rfl)

theorem Unfolds.performs {n : Nat} {s s' t : State} {j : Job} {js : List Job} {items : List Item} (hu : Unfolds s j js s')
    (hpar : s'.par = s.par) (hinputs : s'.inputs = s.inputs) (hopbusy : s'.port.opbusy = s.port.opbusy)
    (h : Performs n s' js items t) : Performs (n + 1) s [j] items t where
  par := h.par.trans hpar
  inputs := h.inputs.trans hinputs
  opbusy := h.opbusy.trans hopbusy
  runs hi hb rest ph c ticks log hlen hk := by
    rw [Nat.succ_mul] at hlen ⊢
    obtain ⟨k, ticks, rfl⟩ := List.exists_cons_of_length_pos (show 0 < ticks.length by omega)
    rw [List.length_cons] at hlen
    obtain ⟨k', ph', c', evs, hle, hrun, hshows⟩ := h.runs (hinputs.trans hi) (hopbusy.trans hb) rest ph.next
      (later s.par c k) ticks log (by rw [hpar]; omega) (by rw [hpar]; exact fun x hx => hk x (List.mem_cons_of_mem _ hx))
    rw [hpar] at hle
    exact ⟨k' + 1, ph', c', evs, by omega, (runs_succ (hu hi hb rest ph c k ticks log) k').trans hrun, hshows⟩

/-- A silent job that puts no job back. -/
theorem performs_silent {s t : State} {j : Job} (hu : Unfolds s j [] t) (hpar : t.par = s.par)
    (hinputs : t.inputs = s.inputs) (hopbusy : t.port.opbusy = s.port.opbusy) : Performs 1 s [j] [] t :=
  hu.performs hpar hinputs hopbusy (Performs.nil t)

/-! ### The transfers -/

section

variable (s : State)

theorem performs_setAc (a : BitVec 7) : Performs 1 s [.setAc a] [] { s with ac := a } :=
  performs_silent (unfolds_job (by simp) rfl fun _ _ _ _ _ => rfl) rfl rfl rfl

theorem performs_incAc : Performs 1 s [.incAc] [] { s with ac := s.ac + 1 } :=
  performs_silent (unfolds_job (by simp) rfl fun _ _ _ _ _ => rfl) rfl rfl rfl

theorem performs_acFromRead : Performs 1 s [.acFromRead] [] { s with ac := addressCounter s.work.rx } :=
  performs_silent (unfolds_job (by simp) rfl fun _ _ _ _ _ => rfl) rfl rfl rfl

/-- XferWrite(rs, b) (R123) writes the LCD pins alone and leaves E = 0. -/
theorem performs_xferWrite (rs : Bool) (b : Byte) :
    ∃ lcd, lcd.e = false ∧
      Performs 20 s (xferWrite s.par s.cfg.dl rs b) (writeItems s.par s.cfg.dl rs b) { s with lcd := lcd } := by
  unfold xferWrite writeItems
  split
  · exact ⟨_, rfl, (performs_busCycleWrite s rs (.byte b)).mono (by decide)⟩
  · have high := performs_busCycleWrite s rs (.nibble (highNibble b))
    exact ⟨_, rfl, high.trans (performs_busCycleWrite _ rs (.nibble (lowNibble b)))⟩

end

/-- XferRead(rs) (R123) takes the controller's next answer into the byte being read, writes the LCD pins, and leaves E = 0. -/
theorem performs_xferRead {s : State} (rs : Bool) {b : Byte} {bs : List Byte} (hrw : s.par.hasRw = true)
    (hb : answers s.cfg.dl s.env.pins = b :: bs) :
    ∃ lcd pins, lcd.e = false ∧ answers s.cfg.dl pins = bs ∧
      Performs 20 s (xferRead s.par s.cfg.dl rs) (readItems s.par s.cfg.dl rs b)
        { s with lcd := lcd, work.rx := b, env.pins := pins } := by
  unfold xferRead readItems
  generalize s.cfg.dl = dl at hb ⊢
  cases dl with
  | true =>
    rw [answers] at hb
    have cycle := performs_busCycleRead rs .full hrw hb
    exact ⟨_, bs, rfl, by rw [answers], cycle.mono (by decide)⟩
  | false =>
    match hp : s.env.pins, hb with
    | p :: q :: ps, hb =>
      obtain ⟨rfl, rfl⟩ := List.cons.inj hb
      have high := performs_busCycleRead rs .high hrw hp
      have both := high.trans (performs_busCycleRead rs .low hrw rfl)
      simp only [sampled, collected, highNibble, BitVec.extractLsb'_append_eq_left] at both
      simp only [highNibble, BitVec.extractLsb'_append_eq_left, BitVec.extractLsb'_append_eq_right]
      exact ⟨_, ps, rfl, rfl, both⟩

/-- A read transfer and the AC_SHADOW update after it (R126, R127). -/
theorem performs_read {s : State} {rs : Bool} {j : Job} {b : Byte} {bs : List Byte} {a : BitVec 7} (hrw : s.par.hasRw = true)
    (hb : answers s.cfg.dl s.env.pins = b :: bs)
    (hj : (rs, j, a) = (false, .acFromRead, addressCounter b) ∨ (rs, j, a) = (true, .incAc, s.ac + 1)) :
    ∃ lcd pins, lcd.e = false ∧ answers s.cfg.dl pins = bs ∧
      Performs 21 s (xferRead s.par s.cfg.dl rs ++ [j]) (readItems s.par s.cfg.dl rs b)
        { s with lcd := lcd, ac := a, work.rx := b, env.pins := pins } := by
  obtain ⟨lcd, pins, he, hpins, h⟩ := performs_xferRead rs hrw hb
  refine ⟨lcd, pins, he, hpins, ?_⟩
  rcases hj with hj | hj
  · cases hj
    exact (h.trans (performs_acFromRead _)).of_items_eq (List.append_nil _)
  · cases hj
    exact (h.trans (performs_incAc _)).of_items_eq (List.append_nil _)

/-- Settles O40: the transfer's jobs are performed (`performs_read`) before the others, whatever these are. -/
theorem readTransfersComplete : Obligations.ReadTransfersComplete := by
  intro s i rs ac hpaced hrw hlen hi
  obtain ⟨b, bs, hb⟩ := List.exists_cons_of_length_pos hlen
  have hanswer : answer s.cfg.dl s 0 = b := by rw [answer, hb]; rfl
  rw [hanswer] at hi ⊢
  have hj : ∃ j, exec i s = .next (push (xferRead s.par s.cfg.dl rs ++ [j]) s) ∧
      ((rs, j, ac) = (false, .acFromRead, addressCounter b) ∨ (rs, j, ac) = (true, .incAc, s.ac + 1)) := by
    rcases hi with hi | hi
    · cases hi
      exact ⟨_, if_pos hrw, .inl rfl⟩
    · cases hi
      exact ⟨_, if_pos hrw, .inr rfl⟩
  obtain ⟨j, hexec, hj⟩ := hj
  obtain ⟨lcd, pins, he, -, h⟩ := performs_read hrw hb hj
  obtain ⟨hin, hbusy, hticks, hk⟩ := hpaced.mono (show 21 ≤ 60 by decide)
  obtain ⟨k, ph, c, evs, -, hrun, hshows⟩ := h.runs hin hbusy s.todo s.phase s.cnt s.env.ticks s.obs.log hticks hk
  exact ⟨_, hexec, k, _, evs, hrun, ⟨rfl, rfl, rfl, rfl, rfl, rfl, rfl, rfl, rfl, rfl, rfl⟩, rfl, he, rfl, rfl, hshows⟩

end Sys2Proof.Machine
end

section
/-! What the sequencer does and what the course of an LCD operation says (spec/42_lcd_bus.md R123 to R132), transfer by
transfer and wait by wait. -/

namespace Sys2Proof.Machine

/-! ### Where a course is -/

/-- The parts of the state that transfers and waits until ready move, beside those that every job moves. -/
structure BusPart where
  lcd : LcdPins
  ac : BitVec 7
  toflag : Bool
  polls : Nat
  rx : Byte
  pins : List Byte

/-- The state with those parts as given. -/
def State.onBus (s : State) (b : BusPart) : State :=
  { s with
    lcd := b.lcd, ac := b.ac, toflag := b.toflag, work.polls := b.polls, work.rx := b.rx, env.pins := b.pins }

/-- Those parts of a state, as they stand. -/
def State.bus (s : State) : BusPart := ⟨s.lcd, s.ac, s.toflag, s.work.polls, s.work.rx, s.env.pins⟩

/-- The course has come as far as the state: same parameters and bus width, AC_SHADOW, TOFLAG and the answers to come. -/
structure Course.At (x : Course) (s : State) : Prop where
  par : x.par = s.par
  dl : x.dl = s.cfg.dl
  ac : x.ac = s.ac
  left : x.left = answers s.cfg.dl s.env.pins
  late : x.late = s.toflag

/-- The jobs `js` of a running operation, which is at the course `x`, are performed in an environment that keeps pace and take
the operation to the course `y`: the log goes on by the items that `y` adds, and only the bus parts of the state have moved. -/
structure Conducts (n : Nat) (s : State) (x : Course) (js : List Job) (b : BusPart) (y : Course) : Prop where
  performs : ∃ items, y.items = x.items ++ items ∧ Performs n s js items (s.onBus b)
  course : y.At (s.onBus b)
  low : s.lcd.e = false → b.lcd.e = false

theorem Conducts.nil {s : State} {x : Course} (hx : x.At s) : Conducts 0 s x [] s.bus x where
  performs := ⟨[], (List.append_nil _).symm, Performs.nil s⟩
  course := hx
  low he := he

theorem Conducts.trans {n m : Nat} {s : State} {x y z : Course} {js js' : List Job} {b b' : BusPart}
    (h : Conducts n s x js b y) (h' : Conducts m (s.onBus b) y js' b' z) : Conducts (n + m) s x (js ++ js') b' z where
  performs := by
    obtain ⟨items, hy, hp⟩ := h.performs
    obtain ⟨items', hz, hp'⟩ := h'.performs
    exact ⟨items ++ items', by rw [hz, hy, List.append_assoc], hp.trans hp'⟩
  course := h'.course
  low he := h'.low (h.low he)

theorem Conducts.mono {n m : Nat} {s : State} {x y : Course} {js : List Job} {b : BusPart} (h : Conducts n s x js b y)
    (hn : n ≤ m) : Conducts m s x js b y where
  performs := by
    obtain ⟨items, hy, hp⟩ := h.performs
    exact ⟨items, hy, hp.mono hn⟩
  course := h.course
  low := h.low

/-- A silent job that puts jobs back, these being performed as the course goes on. -/
theorem Conducts.unfold {n : Nat} {s : State} {x y : Course} {j : Job} {js : List Job} {b b' : BusPart}
    (hu : Unfolds s j js (s.onBus b)) (h : Conducts n (s.onBus b) x js b' y) (he : b.lcd = s.lcd) :
    Conducts (n + 1) s x [j] b' y where
  performs := by
    obtain ⟨items, hy, hp⟩ := h.performs
    exact ⟨items, hy, hu.performs rfl rfl rfl hp⟩
  course := h.course
  low hlow := h.low (show b.lcd.e = false by rw [he, hlow])

/-! ### Transfers -/

/-- A write transfer: XferWrite(rs, byte), then the AC_SHADOW update of the job after it (R123, R125, R131). -/
theorem conducts_write {s : State} {x : Course} {w : BusWord} {i : Instr} {rs : Bool} {byte : Byte} {j : Job} {a : BitVec 7}
    (hx : x.At s) (hd : decodeBus w = .ok i)
    (hexec : ∀ u, exec i u = .next (push (xferWrite u.par u.cfg.dl rs byte ++ [j]) u))
    (hj : j = .setAc a ∨ (j = .incAc ∧ a = x.ac + 1)) :
    ∃ b, Conducts 22 s x [.transfer w] b ((x.send rs byte).setAc a) ∧ b.lcd.e = false := by
  obtain ⟨lcd, he, hsend⟩ := performs_xferWrite s rs byte
  have hac : Performs 1 { s with lcd := lcd } [j] [] { s with lcd := lcd, ac := a } := by
    rcases hj with rfl | ⟨rfl, rfl⟩
    · exact performs_setAc _ a
    · rw [hx.ac]
      exact performs_incAc _
  have hu : Unfolds s (.transfer w) (xferWrite s.par s.cfg.dl rs byte ++ [j]) s :=
    unfolds_transfer hd fun u hpar hcfg => by rw [hexec, hpar, hcfg]
  refine ⟨{ s.bus with lcd := lcd, ac := a }, ⟨⟨writeItems s.par s.cfg.dl rs byte, ?_, ?_⟩, ?_, fun _ => he⟩, he⟩
  · rw [← hx.par, ← hx.dl]
    rfl
  · exact hu.performs rfl rfl rfl ((hsend.trans hac).of_items_eq (List.append_nil _))
  · exact ⟨hx.par, hx.dl, rfl, hx.left, hx.late⟩

/-- A byte with bit 7 set is SET_DDRAM_ADDRESS of its other bits (R75, R78). -/
theorem decodeBus_setDdram (addr : Byte) :
    decodeBus (.cmdw (0x80 ||| addr)) = .ok (.busSetDdramAddress (addr.setWidth 7)) := by
  have hbit : (0x80 ||| addr).getLsbD 7 = true := by simp
  have haddr : (0x80 ||| addr).extractLsb' 0 7 = addr.setWidth 7 := by
    ext k hk
    interval_cases k <;> simp
  rw [decodeBus, decodeCmdw, if_pos hbit, haddr]

theorem setDdramByte_setWidth (addr : Byte) : setDdramByte (addr.setWidth 7) = 0x80 ||| addr := by
  refine BitVec.eq_of_getLsbD_eq fun k hk => ?_
  rw [setDdramByte, BitVec.getLsbD_append]
  interval_cases k <;> simp

/-- A set-address transfer (R75, R131). -/
theorem conducts_setAddress {s : State} {x : Course} (hx : x.At s) (addr : Byte) :
    ∃ b, Conducts 22 s x [.transfer (.cmdw (0x80 ||| addr))] b ((x.send false (0x80 ||| addr)).setAc (addr.setWidth 7)) ∧
      b.lcd.e = false := by
  refine conducts_write hx (decodeBus_setDdram addr) (fun u => ?_) (.inl rfl)
  rw [← setDdramByte_setWidth]
  rfl

/-- A data write (R77, R125, R131). -/
theorem conducts_dataWrite {s : State} {x : Course} (hx : x.At s) (data : Byte) :
    ∃ b, Conducts 22 s x [.transfer (.datw data)] b ((x.send true data).setAc (x.ac + 1)) ∧ b.lcd.e = false :=
  conducts_write hx rfl (fun _ => rfl) (.inr ⟨rfl, rfl⟩)

/-- A read transfer takes the course's next answer, keeps it as the byte read, and updates AC_SHADOW by the job after it (R123,
R126, R127). -/
theorem conducts_read {s : State} {x : Course} {w : BusWord} {i : Instr} {rs : Bool} {j : Job} {a : BitVec 7} (hx : x.At s)
    (hrw : s.par.hasRw = true) (hleft : x.left ≠ []) (hd : decodeBus w = .ok i)
    (hexec : ∀ u, u.par.hasRw = true → exec i u = .next (push (xferRead u.par u.cfg.dl rs ++ [j]) u))
    (hj : (rs, j, a) = (false, .acFromRead, addressCounter (x.left.headD 0)) ∨ (rs, j, a) = (true, .incAc, x.ac + 1)) :
    ∃ b, Conducts 22 s x [.transfer w] b ((x.receive rs).setAc a) ∧ b.lcd.e = false ∧ b.rx = x.left.headD 0 ∧
      b.polls = s.work.polls := by
  obtain ⟨p, ps, hp⟩ := List.exists_cons_of_ne_nil hleft
  rw [hx.ac, hp] at hj
  obtain ⟨lcd, pins, he, hpins, hread⟩ := performs_read hrw (hx.left.symm.trans hp) hj
  have hu : Unfolds s (.transfer w) (xferRead s.par s.cfg.dl rs ++ [j]) s :=
    unfolds_transfer hd fun u hpar hcfg => by rw [hexec u (by rw [hpar, hrw]), hpar, hcfg]
  refine ⟨⟨lcd, a, s.toflag, s.work.polls, p, pins⟩,
    ⟨⟨readItems s.par s.cfg.dl rs p, ?_, hu.performs rfl rfl rfl hread⟩, ?_, fun _ => he⟩, he, by rw [hp]; rfl, rfl⟩
  · rw [← hx.par, ← hx.dl, Course.setAc, Course.receive, hp]
    rfl
  · exact ⟨hx.par, hx.dl, rfl, (congrArg List.tail hp).trans hpins.symm, hx.late⟩

/-- A busy read (R76, R126, R131). -/
theorem conducts_busyRead {s : State} {x : Course} (hx : x.At s) (hrw : s.par.hasRw = true) (hleft : x.left ≠ []) :
    ∃ b, Conducts 22 s x [.transfer .busyr] b x.busyRead ∧ b.lcd.e = false ∧ b.rx = x.left.headD 0 ∧
      b.polls = s.work.polls :=
  conducts_read hx hrw hleft rfl (fun _ h => if_pos h) (.inl rfl)

/-- A data read (R77, R127, R131). -/
theorem conducts_dataRead {s : State} {x : Course} (hx : x.At s) (hrw : s.par.hasRw = true) (hleft : x.left ≠ []) :
    ∃ b, Conducts 22 s x [.transfer .datr] b x.dataRead ∧ b.lcd.e = false ∧ b.rx = x.left.headD 0 := by
  obtain ⟨b, ⟨hperforms, hcourse, hlow⟩, he, hrx, -⟩ :=
    conducts_read hx hrw hleft (w := .datr) rfl (fun _ h => if_pos h) (.inr rfl)
  obtain ⟨hpar, hdl, hac, hrest, hlate⟩ := hcourse
  exact ⟨b, ⟨hperforms, ⟨hpar, hdl, hac, hrest, hlate⟩, hlow⟩, he, hrx⟩

/-! ### Waits until ready -/

theorem pollInterval_le_longestWait (par : Params) : par.pollInterval.toNat ≤ longestWait par := by unfold longestWait; omega

theorem blind_le_longestWait (par : Params) (long : Bool) :
    (if long then par.blindLong else par.blindShort).toNat ≤ longestWait par := by
  unfold longestWait
  split <;> omega

/-- A wait of a number of ticks (R87). -/
theorem conducts_pause {s : State} {x : Course} (hx : x.At s) {n : Word} (hn : n.toNat ≤ longestWait s.par) :
    Conducts 1 s x (waitTicks n) s.bus (x.pause n) :=
  ⟨⟨_, rfl, performs_wait s hn⟩, ⟨hx.par, hx.dl, hx.ac, hx.left, hx.late⟩, id⟩

/-- A ready answer ends the wait (R128). -/
theorem unfolds_pollTest_ready {s : State} (hready : busyFlag s.work.rx = false) : Unfolds s .pollTest [] s :=
  unfolds_job (by simp) rfl fun rest ph c ticks log => by
    simp only [runJob, runPollTest, State.atPlace, hready]
    rfl

/-- The MAX_POLLS-th busy answer ends the wait and sets TOFLAG (R129). -/
theorem unfolds_pollTest_last {s : State} (hbusy : busyFlag s.work.rx = true) (hlast : s.par.maxPolls ≤ s.work.polls + 1) :
    Unfolds s .pollTest [] { s with work.polls := s.work.polls + 1, toflag := true } :=
  unfolds_job (by simp) rfl fun rest ph c ticks log => by
    simp only [runJob, runPollTest, State.atPlace, hbusy, hlast, if_true]
    rfl

/-- Another busy answer is followed by POLL_INTERVAL and a further poll (R128). -/
theorem unfolds_pollTest_again {s : State} (hbusy : busyFlag s.work.rx = true) (hmore : s.work.polls + 1 < s.par.maxPolls) :
    Unfolds s .pollTest (waitTicks s.par.pollInterval ++ [.poll]) { s with work.polls := s.work.polls + 1 } :=
  unfolds_job (by simp) rfl fun rest ph c ticks log => by
    simp only [runJob, runPollTest, State.atPlace, hbusy, Nat.not_le.2 hmore, if_true, if_false]
    rfl

theorem Course.polls_ready (n : Nat) {x : Course} (hready : (x.left.headD 0).getLsbD 7 = false) :
    x.polls n = x.busyRead := by
  cases n with
  | zero =>
    rw [Course.polls, hready, Bool.or_false]
    rfl
  | succ n =>
    rw [Course.polls, hready]
    rfl

theorem Course.polls_again (n : Nat) {x : Course} (hbusy : (x.left.headD 0).getLsbD 7 = true) :
    x.polls (n + 1) = Course.polls n (x.busyRead.pause x.par.pollInterval) := if_pos hbusy

/-- The polls of WaitReady from POLLS on, where `n` further ones are allowed after the first (R128, R129). -/
theorem conducts_poll (n : Nat) {s : State} {x : Course} (hx : x.At s) (hrw : s.par.hasRw = true)
    (hn : n = s.par.maxPolls - 1 - s.work.polls) (hleft : n + 1 ≤ x.left.length) :
    ∃ b, Conducts (25 * (n + 1)) s x [.poll] b (x.polls n) ∧ b.lcd.e = false := by
  have hpoll : Unfolds s .poll [.transfer .busyr, .pollTest] s := unfolds_job (by simp) rfl fun _ _ _ _ _ => rfl
  obtain ⟨b, hread, he, hrx, hpolls⟩ := conducts_busyRead hx hrw (List.ne_nil_of_length_pos (by omega))
  have decided {m : Nat} {b' : BusPart} {y : Course} (h : Conducts m (s.onBus b) x.busyRead [.pollTest] b' y) :
      Conducts (22 + m + 1) s x [.poll] b' y := (hread.trans h).unfold (b := s.bus) hpoll rfl
  have hcourse := hread.course
  cases hbusy : (x.left.headD 0).getLsbD 7 with
  | false =>
    have hready : busyFlag (s.onBus b).work.rx = false := by rw [← hbusy, ← hrx]; rfl
    rw [Course.polls_ready n hbusy]
    exact ⟨b, (decided (.unfold (unfolds_pollTest_ready hready) (.nil hcourse) rfl)).mono (by omega), he⟩
  | true =>
    have hflag : busyFlag (s.onBus b).work.rx = true := by rw [← hbusy, ← hrx]; rfl
    cases n with
    | zero =>
      have hlast : (s.onBus b).par.maxPolls ≤ (s.onBus b).work.polls + 1 := by
        change s.par.maxPolls ≤ b.polls + 1
        omega
      have hlate : (x.polls 0).At ((s.onBus b).onBus { b with polls := b.polls + 1, toflag := true }) :=
        ⟨hcourse.par, hcourse.dl, hcourse.ac, hcourse.left, by rw [Course.polls, hbusy, Bool.or_true]; rfl⟩
      have htest : Performs 1 (s.onBus b) [.pollTest] [] ((s.onBus b).onBus { b with polls := b.polls + 1, toflag := true }) :=
        performs_silent (unfolds_pollTest_last hflag hlast) rfl rfl rfl
      have hended : Conducts 1 (s.onBus b) x.busyRead [.pollTest] _ (x.polls 0) :=
        ⟨⟨[], (List.append_nil _).symm, htest⟩, hlate, id⟩
      exact ⟨_, (decided hended).mono (by omega), he⟩
    | succ n =>
      have hmore : (s.onBus b).work.polls + 1 < (s.onBus b).par.maxPolls := by
        change b.polls + 1 < s.par.maxPolls
        omega
      have hcounted : x.busyRead.At ((s.onBus b).onBus { b with polls := b.polls + 1 }) :=
        ⟨hcourse.par, hcourse.dl, hcourse.ac, hcourse.left, hcourse.late⟩
      have hpause := conducts_pause hcounted (pollInterval_le_longestWait s.par)
      obtain ⟨b', hrest, he'⟩ := conducts_poll n hpause.course hrw (by
        change n = s.par.maxPolls - 1 - (b.polls + 1)
        omega) (by
        change n + 1 ≤ x.left.tail.length
        rw [List.length_tail]
        omega)
      rw [Course.polls_again n hbusy, hx.par]
      have hagain := (hpause.trans hrest).unfold (s := s.onBus b) (b := { b with polls := b.polls + 1 })
        (unfolds_pollTest_again hflag hmore) rfl
      exact ⟨b', (decided hagain).mono (by omega), he'⟩

/-- WaitReady(long) (R128 to R130): it ends within its polls, the controller having that many answers, or after its delay. -/
theorem conducts_wait (long : Bool) {s : State} {x : Course} (hx : x.At s)
    (hleft : s.par.hasRw = true → s.par.maxPolls + 1 ≤ x.left.length) :
    ∃ b, Conducts (25 * (s.par.maxPolls + 1) + 1) s x [.waitReady long] b (x.wait long) ∧
      (s.par.hasRw = true → b.lcd.e = false) := by
  cases hrw : s.par.hasRw with
  | true =>
    have hu : Unfolds s (.waitReady long) [.poll] (s.onBus { s.bus with polls := 0 }) :=
      unfolds_job (by simp) rfl fun rest ph c ticks log => by
        simp only [runJob, runWaitReady, State.atPlace, hrw, if_true]
        rfl
    have hstart : x.At (s.onBus { s.bus with polls := 0 }) := ⟨hx.par, hx.dl, hx.ac, hx.left, hx.late⟩
    obtain ⟨b, hpoll, he⟩ := conducts_poll (s.par.maxPolls - 1) hstart hrw rfl (by have := hleft hrw; omega)
    rw [Course.wait, hx.par, hrw, if_pos rfl]
    exact ⟨b, (hpoll.unfold hu rfl).mono (by omega), fun _ => he⟩
  | false =>
    have hu : Unfolds s (.waitReady long) (waitTicks (if long then s.par.blindLong else s.par.blindShort)) s :=
      unfolds_job (by simp) rfl fun rest ph c ticks log => by
        simp only [runJob, runWaitReady, State.atPlace, hrw]
        rfl
    have hblind := conducts_pause hx (blind_le_longestWait s.par long)
    rw [Course.wait, hx.par, hrw, if_neg (by simp)]
    exact ⟨s.bus, (hblind.unfold (b := s.bus) hu rfl).mono (by omega), by simp⟩

/-! ### The answers that are left -/

theorem Course.polls_left (n : Nat) (x : Course) : x.left.length ≤ (x.polls n).left.length + (n + 1) := by
  have hread (y : Course) : y.busyRead.left = y.left.tail := rfl
  induction n generalizing x with
  | zero =>
    change _ ≤ x.left.tail.length + _
    rw [List.length_tail]
    omega
  | succ n ih =>
    rw [Course.polls]
    split
    · have h := ih (x.busyRead.pause x.par.pollInterval)
      change x.left.tail.length ≤ _ at h
      rw [List.length_tail] at h
      omega
    · rw [hread, List.length_tail]
      omega

/-- A wait takes no more than MAX_POLLS answers, or one with MAX_POLLS = 0. -/
theorem Course.wait_left (long : Bool) (x : Course) : x.left.length ≤ (x.wait long).left.length + (x.par.maxPolls + 1) := by
  unfold Course.wait
  split
  · have h := Course.polls_left (x.par.maxPolls - 1) x
    omega
  · exact Nat.le_add_right ..

end Sys2Proof.Machine
end

section
/-! LCD operations from their start to their end (spec/20_memory.md R46, R47; spec/43_lcd_ops.md R136, R147 to R152): how jobs that
end an operation are performed, and the operations that use an address or a buffer. -/

namespace Sys2Proof.Machine

/-! ### Jobs that end an operation -/

/-- With a timer that keeps pace for `n` jobs, the jobs `js` of a running LCD operation are performed, the last of them ends the
operation with VAL = v, and the log goes on with what the items show; before its end `s` has become `t` but for the parts that
every job moves. -/
def Ends (n : Nat) (s : State) (js : List Job) (items : List Item) (v : Word) (t : State) : Prop :=
  s.inputs = [] → s.port.opbusy = true → ∀ ph c ticks log, n * (longestWait s.par + 2) ≤ ticks.length →
    KeepsPace s.par ticks → ∃ k ph' c' ticks' evs,
      runs k (s.atPlace js ph c ticks log) = .next (runLcdEnd v (t.atPlace [] ph' c' ticks' (log ++ evs))) ∧
        shows evs items = true

theorem Performs.ends {n m : Nat} {s t u : State} {js js' : List Job} {items items' : List Item} {v : Word}
    (h : Performs n s js items t) (h' : Ends m t js' items' v u) : Ends (n + m) s (js ++ js') (items ++ items') v u := by
  intro hi hb ph c ticks log hlen hk
  rw [Nat.add_mul] at hlen
  obtain ⟨k, ph₁, c₁, evs, hle, hrun, hshows⟩ := h.runs hi hb js' ph c ticks log (by omega) hk
  obtain ⟨k', ph₂, c₂, ticks', evs', hrun', hshows'⟩ := h' (h.inputs.trans hi) (h.opbusy.trans hb) ph₁ c₁ (ticks.drop k)
    (log ++ evs) (by rw [h.par, List.length_drop]; omega) (by rw [h.par]; exact fun x hx => hk x (List.mem_of_mem_drop hx))
  refine ⟨k + k', ph₂, c₂, ticks', evs ++ evs', ?_, shows_append hshows hshows'⟩
  rw [runs_add hrun, hrun', List.append_assoc]

theorem Unfolds.ends {n : Nat} {s s' t : State} {j : Job} {js rest : List Job} {items : List Item} {v : Word}
    (hu : Unfolds s j js s') (hpar : s'.par = s.par) (hinputs : s'.inputs = s.inputs)
    (hopbusy : s'.port.opbusy = s.port.opbusy) (h : Ends n s' (js ++ rest) items v t) : Ends (n + 1) s (j :: rest) items v t := by
  intro hi hb ph c ticks log hlen hk
  rw [Nat.succ_mul] at hlen
  obtain ⟨k, ticks, rfl⟩ := List.exists_cons_of_length_pos (show 0 < ticks.length by omega)
  rw [List.length_cons] at hlen
  obtain ⟨k', ph', c', ticks', evs, hrun, hshows⟩ := h (hinputs.trans hi) (hopbusy.trans hb) ph.next (later s.par c k) ticks log
    (by rw [hpar]; omega) (by rw [hpar]; exact fun x hx => hk x (List.mem_cons_of_mem _ hx))
  exact ⟨k' + 1, ph', c', ticks', evs, (runs_succ (hu hi hb rest ph c k ticks log) k').trans hrun, hshows⟩

/-- The step of the end (R136). -/
theorem ends_job {s : State} {j : Job} {v : Word} (hj : ∀ w, j ≠ .transfer w) (ho : outsideBuffer s j = false)
    (h : ∀ ph c ticks log, runJob j (s.atPlace [] ph c ticks log) = runLcdEnd v (s.atPlace [] ph c ticks log)) :
    Ends 1 s [j] [] v s := by
  intro hi hb ph c ticks log hlen hk
  obtain ⟨k, ticks, rfl⟩ := List.exists_cons_of_length_pos (show 0 < ticks.length by omega)
  have ho' := (outsideBuffer_congr (s := s.atPlace [j] ph c (k :: ticks) log) (t := s) rfl rfl j).trans ho
  have hstep := step_job (s := s.atPlace [j] ph c (k :: ticks) log) hi hb rfl rfl hj ho'
  refine ⟨1, ph.next, later s.par c k, ticks, [], ?_, rfl⟩
  rw [runs_succ hstep, runs_zero, List.append_nil, ← h]
  rfl

/-! ### Courses to their end -/

/-- The jobs `js` of a running LCD operation, which is at the course `x`, take it by the course `y` to its end with VAL = v. -/
structure Finishes (n : Nat) (s : State) (x : Course) (js : List Job) (v : Word) (t : State) (y : Course) : Prop where
  ends : ∃ items, y.items = x.items ++ items ∧ Ends n s js items v t
  course : y.At t
  low : s.lcd.e = false → t.lcd.e = false

theorem Finishes.mono {n m : Nat} {s t : State} {x y : Course} {js : List Job} {v : Word} (h : Finishes n s x js v t y)
    (hn : n ≤ m) : Finishes m s x js v t y where
  ends := by
    obtain ⟨items, hy, he⟩ := h.ends
    exact ⟨items, hy, fun hi hb ph c ticks log hlen =>
      he hi hb ph c ticks log (Nat.le_trans (Nat.mul_le_mul_right _ hn) hlen)⟩
  course := h.course
  low := h.low

theorem Conducts.finishes {n m : Nat} {s t : State} {x y z : Course} {js js' : List Job} {b : BusPart} {v : Word}
    (h : Conducts n s x js b y) (h' : Finishes m (s.onBus b) y js' v t z) : Finishes (n + m) s x (js ++ js') v t z where
  ends := by
    obtain ⟨items, hy, hp⟩ := h.performs
    obtain ⟨items', hz, he⟩ := h'.ends
    exact ⟨items ++ items', by rw [hz, hy, List.append_assoc], hp.ends he⟩
  course := h'.course
  low he := h'.low (h.low he)

/-- A silent job that puts jobs back, with which the operation then comes to its end. -/
theorem Finishes.unfold {n : Nat} {s s' t : State} {x y : Course} {j : Job} {js rest : List Job} {v : Word}
    (hu : Unfolds s j js s') (h : Finishes n s' x (js ++ rest) v t y) (hpar : s'.par = s.par) (hinputs : s'.inputs = s.inputs)
    (hopbusy : s'.port.opbusy = s.port.opbusy) (hlcd : s'.lcd = s.lcd) : Finishes (n + 1) s x (j :: rest) v t y where
  ends := by
    obtain ⟨items, hy, he⟩ := h.ends
    exact ⟨items, hy, hu.ends hpar hinputs hopbusy he⟩
  course := h.course
  low hlow := h.low (by rw [hlcd, hlow])

theorem finishes_job {s : State} {x : Course} {j : Job} {v : Word} (hx : x.At s) (hj : ∀ w, j ≠ .transfer w)
    (ho : outsideBuffer s j = false)
    (h : ∀ ph c ticks log, runJob j (s.atPlace [] ph c ticks log) = runLcdEnd v (s.atPlace [] ph c ticks log)) :
    Finishes 1 s x [j] v s x :=
  ⟨⟨[], (List.append_nil _).symm, ends_job hj ho h⟩, hx, id⟩

/-- The end itself (R136). -/
theorem finishes_lcdEnd {s : State} {x : Course} (hx : x.At s) (v : Word) : Finishes 1 s x [.lcdEnd v] v s x :=
  finishes_job hx (by simp) rfl fun _ _ _ _ => rfl

/-- An operation accepted in `s` that has started in `t` and comes to its end by the course `y` ends as its rule has it. -/
theorem Finishes.endsAs {n : Nat} {s t u : State} {y : Course} {v : Word}
    (h : Finishes n t (Course.start s.cfg.dl s) t.todo v u y) (hp : Paced n t) (hlog : t.obs.log = s.obs.log)
    (hresults : u.obs.results = s.obs.results) (hkeeps : LcdKeeps s u) (he : y.items ≠ [] → u.lcd.e = false) :
    EndsAs y v u.set u.cfg u.port.rbuf.read s t := by
  obtain ⟨items, hy, hends⟩ := h.ends
  obtain ⟨hi, hb, hlen, hk⟩ := hp
  obtain ⟨k, ph, c, ticks, evs, hrun, hshows⟩ := hends hi hb t.phase t.cnt t.env.ticks t.obs.log hlen hk
  have hstatus : endStatus u.toflag = if y.late then .controllerTimeout else .ok := by rw [h.course.late]; rfl
  refine ⟨k, _, evs, hrun, ⟨congrArg Status.code hstatus, rfl, rfl, rfl, rfl, ?_⟩, rfl, rfl, h.course.ac.symm, he, ?_, ?_,
    hkeeps, fun _ => rfl⟩
  · rw [← hresults]
    rfl
  · rw [← hlog]
    rfl
  · rw [hy]
    exact hshows

/-! ### Starting an operation -/

/-- An LCD operation other than LCD.INIT starts its jobs when INIT_DONE = 1 (R136, R138). -/
theorem lcdPrologue_of_initDone {s : State} (h : s.cfg.initDone = true) (body : State → State) :
    lcdPrologue body s = .next (body (clearToflag s)) := if_pos h

theorem needsRw_of_hasRw {s : State} (h : s.par.hasRw = true) (body : State → State) : needsRw body s = body s := if_pos h

/-- A started operation is at the start of its course. -/
theorem Course.start_at_lcdJobs (s : State) (js : List Job) : (Course.start s.cfg.dl s).At (lcdJobs js (clearToflag s)) :=
  ⟨rfl, rfl, rfl, rfl, rfl⟩

/-! ### LCD.SET_CURSOR -/

theorem Answered.wait {dl : Bool} {s : State} (h : Answered dl 1 s) (hrw : s.par.hasRw = true) :
    s.par.maxPolls + 1 ≤ (Course.start dl s).left.length := by
  have := h hrw
  change _ ≤ (answers dl s.env.pins).length
  omega

/-- Settles O53: a set-address transfer (`conducts_setAddress`), a wait (`conducts_wait`) and the end. -/
theorem setCursorCompletes : Obligations.SetCursorCompletes := by
  rintro s row col addr hinit - hin haddr hpaced hanswered
  have hcursor : cursorAddr s.par row col = addr := by rw [haddr, cursorAddr, rowOffset_eq]
  have hexec : exec (.lcdSetCursor row col) s =
      .next (lcdJobs [.transfer (.cmdw (0x80 ||| addr)), .waitReady false, .lcdEnd 1] (clearToflag s)) := by
    change execLcdSetCursor row col s = _
    rw [execLcdSetCursor, lcdPrologue_of_initDone hinit, clearToflag_cfg, if_pos hin, clearToflag_par, hcursor]
    rfl
  refine ⟨_, hexec, rfl, ?_⟩
  obtain ⟨b, hsend, he⟩ := conducts_setAddress (Course.start_at_lcdJobs s _) addr
  obtain ⟨b', hwait, -⟩ := conducts_wait false hsend.course hanswered.wait
  have hends := (hsend.trans hwait).finishes (finishes_lcdEnd hwait.course 1)
  have hjobs : 22 + (25 * (s.par.maxPolls + 1) + 1) + 1 ≤ 50 * (s.par.maxPolls + 2) := by omega
  exact (hends.mono hjobs).endsAs hpaced rfl rfl ⟨rfl, rfl, rfl, rfl, rfl, rfl, rfl, rfl, rfl, rfl, rfl⟩ fun _ => hwait.low he

end Sys2Proof.Machine
end

section
/-! The row operations from their start to their end (spec/20_memory.md R47; spec/43_lcd_ops.md R149, R150, R152): their loops, by
induction on the bytes that remain. -/

namespace Sys2Proof.Machine

/-! ### LCD.WRITE_ROW -/

/-- With ROW_OFFSET = 0x00, 0x40 the cells that remain in a row are R150's. -/
theorem remaining_default {par : Params} (cfg : LcdConfig) (a : BitVec 7) (h0 : par.rowOffset0 = 0x00)
    (h1 : par.rowOffset1 = 0x40) :
    remaining par cfg a =
      if a.toNat < cfg.cols.toNat then cfg.cols.toNat - a.toNat
      else if cfg.n = true ∧ 0x40 ≤ a.toNat ∧ a.toNat < 0x40 + cfg.cols.toNat then 0x40 + cfg.cols.toNat - a.toNat
      else 0 := by
  have first : remainingIn par.rowOffset0 cfg.cols a =
      if a.toNat < cfg.cols.toNat then some (cfg.cols.toNat - a.toNat) else none := by simp [remainingIn, h0]
  have second : remainingIn par.rowOffset1 cfg.cols a =
      if 0x40 ≤ a.toNat ∧ a.toNat < 0x40 + cfg.cols.toNat then some (0x40 + cfg.cols.toNat - a.toNat) else none := by
    simp [remainingIn, h1]
  rw [remaining, first, second]
  by_cases hfirst : a.toNat < cfg.cols.toNat
  · simp only [hfirst, if_true]
  · simp only [hfirst, if_false]
    cases cfg.n with
    | false => simp
    | true => by_cases hsecond : 0x40 ≤ a.toNat ∧ a.toNat < 0x40 + cfg.cols.toNat <;> simp [hsecond]

/-- N_XFER is R149's minimum, which fits in a u8. -/
theorem rowCount_toNat (par : Params) (cfg : LcdConfig) (n : Byte) (a : BitVec 7) :
    (BitVec.ofNat 8 (rowCount par cfg n a)).toNat = rowCount par cfg n a := by
  have hle : rowCount par cfg n a ≤ n.toNat := Nat.min_le_left ..
  rw [BitVec.toNat_ofNat, Nat.mod_eq_of_lt (by omega)]

theorem zextByte_eq_ofNat (v : Byte) : zextByte v = BitVec.ofNat 32 v.toNat := (BitVec.ofNat_toNat ..).symm

/-- The head of LCD.WRITE_ROW's loop below N_XFER (R149). -/
theorem unfolds_writeNext {s : State} {i : Nat} (hlt : i < s.work.nXfer.toNat) (hsize : i < s.par.bufSize) :
    Unfolds s (.writeNext i) [.transfer (.datw (s.port.wbuf.read i)), .waitReady false, .writeNext (i + 1)] s :=
  unfolds_job (by simp) (by simp [outsideBuffer_writeNext, hsize]) fun _ _ _ _ _ => if_pos hlt

/-- The loop of LCD.WRITE_ROW ends the operation with VAL = N_XFER. -/
theorem finishes_writeNext_done {s : State} {x : Course} (hx : x.At s) {i : Nat} (hge : s.work.nXfer.toNat ≤ i) :
    Finishes 1 s x [.writeNext i] (zextByte s.work.nXfer) s x :=
  finishes_job hx (by simp) (by simp [outsideBuffer_writeNext, hge]) fun _ _ _ _ => if_neg (Nat.not_lt.2 hge)

/-- A data write and its wait (R125, R132). -/
theorem conducts_writeData {s : State} {x : Course} (hx : x.At s) (data : Byte)
    (hleft : s.par.hasRw = true → s.par.maxPolls + 1 ≤ x.left.length) :
    ∃ b, Conducts (25 * (s.par.maxPolls + 2) - 1) s x [.transfer (.datw data), .waitReady false] b (x.writeData data) ∧
      b.lcd.e = false := by
  obtain ⟨b, hsend, he⟩ := conducts_dataWrite hx data
  obtain ⟨b', hwait, -⟩ := conducts_wait false hsend.course hleft
  have hjobs : 22 + (25 * (s.par.maxPolls + 1) + 1) ≤ 25 * (s.par.maxPolls + 2) - 1 := by omega
  exact ⟨b', (hsend.trans hwait).mono hjobs, hwait.low he⟩

/-- A data write and its wait take no more than the wait's answers. -/
theorem Course.writeData_left (x : Course) (data : Byte) :
    x.left.length ≤ (x.writeData data).left.length + (x.par.maxPolls + 1) :=
  Course.wait_left false ((x.send true data).setAc (x.ac + 1))

/-- LCD.WRITE_ROW's loop from index i on, with `k` bytes yet to write (R149). -/
theorem finishes_writeNext (k : Nat) {s : State} {x : Course} {i : Nat} (hx : x.At s) (hk : i + k = s.work.nXfer.toNat)
    (hsize : i + k ≤ s.par.bufSize) (hleft : s.par.hasRw = true → k * (s.par.maxPolls + 2) ≤ x.left.length) :
    ∃ b, Finishes (25 * (s.par.maxPolls + 2) * (k + 1)) s x [.writeNext i] (zextByte s.work.nXfer) (s.onBus b)
        (((List.range' i k).map s.port.wbuf.read).foldl Course.writeData x) ∧ (0 < k → b.lcd.e = false) := by
  induction k generalizing s x i with
  | zero => exact ⟨s.bus, (finishes_writeNext_done hx (by omega)).mono (by omega), fun h => absurd h (Nat.lt_irrefl 0)⟩
  | succ k ih =>
    rw [Nat.succ_mul] at hleft
    obtain ⟨b, hwrite, he⟩ := conducts_writeData hx (s.port.wbuf.read i) fun hrw => by have := hleft hrw; omega
    have hrest := x.writeData_left (s.port.wbuf.read i)
    rw [hx.par] at hrest
    obtain ⟨b', hloop, -⟩ := ih (s := s.onBus b) (i := i + 1) hwrite.course ((Nat.succ_add_eq_add_succ i k).trans hk)
      ((Nat.succ_add_eq_add_succ i k).trans_le hsize) fun (hrw : s.par.hasRw = true) =>
        show k * (s.par.maxPolls + 2) ≤ _ by have := hleft hrw; omega
    have hall := (hwrite.finishes hloop).unfold (unfolds_writeNext (by omega) (by omega)) rfl rfl rfl rfl
    refine ⟨b', hall.mono ?_, fun _ => hloop.low he⟩
    change 25 * (s.par.maxPolls + 2) - 1 + 25 * (s.par.maxPolls + 2) * (k + 1) + 1 ≤ _
    rw [Nat.mul_succ _ (k + 1)]
    omega

/-- N_XFER <- min(n, Remaining(AC_SHADOW)), and then the loop (R149). -/
theorem finishes_rowCap {s : State} {x : Course} {n : Byte} {m : Nat} (hx : x.At s) (hm : m = rowCount s.par s.cfg n x.ac)
    (hsize : m ≤ s.par.bufSize) (hleft : s.par.hasRw = true → m * (s.par.maxPolls + 2) ≤ x.left.length) :
    ∃ b nXfer, Finishes (25 * (s.par.maxPolls + 2) * (m + 1) + 1) s x [.rowCap n, .writeNext 0] (BitVec.ofNat 32 m)
        ({ s with work.nXfer := nXfer }.onBus b)
        (((List.range m).map s.port.wbuf.read).foldl Course.writeData x) ∧ (0 < m → b.lcd.e = false) := by
  rw [hx.ac] at hm
  have hcap : Unfolds s (.rowCap n) [] { s with work.nXfer := BitVec.ofNat 8 m } :=
    unfolds_job (by simp) rfl fun _ _ _ _ _ => by rw [hm]; rfl
  have hcount : (BitVec.ofNat 8 m).toNat = m := by rw [hm, rowCount_toNat]
  have hcapped : x.At { s with work.nXfer := BitVec.ofNat 8 m } := ⟨hx.par, hx.dl, hx.ac, hx.left, hx.late⟩
  obtain ⟨b, hloop, he⟩ := finishes_writeNext m (i := 0) hcapped (by rw [Nat.zero_add]; exact hcount.symm)
    (by rwa [Nat.zero_add]) hleft
  rw [zextByte_eq_ofNat, hcount, ← List.range_eq_range'] at hloop
  exact ⟨b, _, hloop.unfold hcap rfl rfl rfl rfl, he⟩

/-- The busy-flag query, where there is an RW pin (R149). -/
theorem conducts_query {s : State} {x : Course} (hx : x.At s)
    (hleft : s.par.hasRw = true → s.par.maxPolls + 1 ≤ x.left.length) :
    ∃ b, Conducts (25 * (s.par.maxPolls + 1) + 1) s x (if s.par.hasRw then [.waitReady false] else []) b
        (if s.par.hasRw then x.wait false else x) ∧ (s.par.hasRw = true → b.lcd.e = false) := by
  split
  case isTrue => exact conducts_wait false hx hleft
  case isFalse hrw => exact ⟨s.bus, (Conducts.nil hx).mono (Nat.zero_le _), fun h => absurd h hrw⟩

/-- After the query the controller has answers for the row's own waits. -/
theorem Answered.afterQuery {dl : Bool} {n : Nat} {s : State} (h : Answered dl (n + 1) s) (hrw : s.par.hasRw = true) :
    n * (s.par.maxPolls + 2) ≤ ((Course.start dl s).wait false).left.length := by
  have hmany := h hrw
  have hquery := Course.wait_left false (Course.start dl s)
  change (answers dl s.env.pins).length ≤ _ + (s.par.maxPolls + 1) at hquery
  rw [Nat.succ_mul] at hmany
  omega

/-- Settles O55: the query (`conducts_query`), the cap and the loop (`finishes_rowCap`). -/
theorem writeRowCompletes : Obligations.WriteRowCompletes := by
  refine ⟨fun par cfg a h0 h1 => remaining_default cfg a h0 h1, ?_⟩
  rintro s n m x hinit hpaced hanswered rfl hm hsize
  have hmn : m ≤ n.toNat := hm ▸ Nat.min_le_left ..
  have hexec : exec (.lcdWriteRow n) s =
      .next (lcdJobs ((if s.par.hasRw then [.waitReady false] else []) ++ [.rowCap n, .writeNext 0]) (clearToflag s)) :=
    lcdPrologue_of_initDone hinit _
  refine ⟨_, hexec, rfl, ?_⟩
  have hstart := Course.start_at_lcdJobs s ((if s.par.hasRw then [.waitReady false] else []) ++ [.rowCap n, .writeNext 0])
  obtain ⟨b, hquery, hqe⟩ := conducts_query hstart fun hrw => by
    have hmany : (n.toNat + 1) * (s.par.maxPolls + 2) ≤ (answers s.cfg.dl s.env.pins).length := hanswered hrw
    change s.par.maxPolls + 1 ≤ (answers s.cfg.dl s.env.pins).length
    rw [Nat.succ_mul] at hmany
    omega
  obtain ⟨b', nXfer, hrow, hre⟩ := finishes_rowCap hquery.course hm hsize fun (hrw : s.par.hasRw = true) => by
    refine Nat.le_trans (Nat.mul_le_mul_right _ hmn) ?_
    change n.toNat * (s.par.maxPolls + 2) ≤ (if s.par.hasRw then _ else _ : Course).left.length
    rw [if_pos hrw]
    exact hanswered.afterQuery hrw
  have hjobs : 25 * (s.par.maxPolls + 1) + 1 + (25 * (s.par.maxPolls + 2) * (m + 1) + 1) ≤
      50 * (s.par.maxPolls + 2) * (n.toNat + 2) := by
    have hrow := Nat.mul_le_mul_left (25 * (s.par.maxPolls + 2)) (show m + 1 ≤ n.toNat + 1 by omega)
    rw [show 50 * (s.par.maxPolls + 2) * (n.toNat + 2) =
      2 * (25 * (s.par.maxPolls + 2) * (n.toNat + 1) + 25 * (s.par.maxPolls + 2)) by ring]
    omega
  refine ((hquery.finishes hrow).mono hjobs).endsAs hpaced rfl rfl ⟨rfl, rfl, rfl, rfl, rfl, rfl, rfl, rfl, rfl, rfl, rfl⟩
    fun hitems => ?_
  by_cases hrw : s.par.hasRw = true
  · exact hrow.low (hqe hrw)
  · refine hre (Nat.pos_of_ne_zero ?_)
    rintro rfl
    change (if s.par.hasRw then _ else Course.start s.cfg.dl s : Course).items ≠ [] at hitems
    rw [if_neg hrw] at hitems
    exact hitems rfl

/-! ### LCD.READ_ROW -/

theorem Course.polls_got (n : Nat) (x : Course) : (x.polls n).got = x.got := by
  induction n generalizing x with
  | zero => rfl
  | succ n ih =>
    rw [Course.polls]
    split
    · exact ih _
    · rfl

/-- A wait keeps the bytes that the data reads gave. -/
theorem Course.wait_got (long : Bool) (x : Course) : (x.wait long).got = x.got := by
  unfold Course.wait
  split
  · exact Course.polls_got ..
  · rfl

/-- `k` data reads append `k` bytes to those the data reads gave. -/
theorem Course.readRow_got (k : Nat) (x : Course) : ∃ bs, (x.readRow k).got = x.got ++ bs ∧ bs.length = k := by
  induction k generalizing x with
  | zero => exact ⟨[], (List.append_nil _).symm, rfl⟩
  | succ k ih =>
    obtain ⟨bs, hgot, hlen⟩ := ih (x.dataRead.wait false)
    refine ⟨x.left.headD 0 :: bs, ?_, by rw [List.length_cons, hlen]⟩
    rw [Course.readRow, hgot, Course.wait_got, Course.dataRead, List.append_assoc]
    rfl

/-- The first of the bytes that more data reads append is the next answer. -/
theorem Course.readRow_got_first (k : Nat) (x : Course) :
    (x.readRow (k + 1)).got.getD x.got.length 0 = x.left.headD 0 := by
  obtain ⟨bs, hgot, -⟩ := Course.readRow_got k (x.dataRead.wait false)
  rw [Course.readRow, hgot, Course.wait_got, Course.dataRead]
  simp

/-- A data read takes one answer, and its wait those of the wait. -/
theorem Course.dataRead_wait_left (x : Course) :
    x.left.length ≤ (x.dataRead.wait false).left.length + (x.par.maxPolls + 2) := by
  have hwait := Course.wait_left false x.dataRead
  change x.left.tail.length ≤ _ + (x.par.maxPolls + 1) at hwait
  rw [List.length_tail] at hwait
  omega

/-- The head of LCD.READ_ROW's loop below N_XFER (R152). -/
theorem unfolds_readNext {s : State} {i : Nat} (hlt : i < s.work.nXfer.toNat) :
    Unfolds s (.readNext i) [.transfer .datr, .storeRead i, .waitReady false, .readNext (i + 1)] s :=
  unfolds_job (by simp) rfl fun _ _ _ _ _ => if_pos hlt

/-- The loop of LCD.READ_ROW ends the operation with VAL = N_XFER. -/
theorem finishes_readNext_done {s : State} {x : Course} (hx : x.At s) {i : Nat} (hge : s.work.nXfer.toNat ≤ i) :
    Finishes 1 s x [.readNext i] (zextByte s.work.nXfer) s x :=
  finishes_job hx (by simp) rfl fun _ _ _ _ => if_neg (Nat.not_lt.2 hge)

/-- MemWrite(RBUF, i, 1, x), inside the buffer (R47, R152). -/
theorem unfolds_storeRead {s : State} {i : Nat} (hsize : i < s.par.bufSize) :
    Unfolds s (.storeRead i) [] (runStoreRead i s) :=
  unfolds_job (by simp) (by simpa [outsideBuffer_storeRead] using hsize) fun _ _ _ _ _ => rfl

/-- The state with byte i of RBUF written. -/
def State.storing (s : State) (i : Nat) (v : Byte) : State := { s with port.rbuf := s.port.rbuf.write i v }

/-- One byte of LCD.READ_ROW, a data read, its store and its wait, and what then comes to the operation's end (R152). -/
theorem finishes_readByte {s : State} {x : Course} {i : Nat} (hx : x.At s) (hrw : s.par.hasRw = true)
    (hsize : i < s.par.bufSize) (hleft : s.par.maxPolls + 2 ≤ x.left.length) :
    ∃ b, b.lcd.e = false ∧ (x.dataRead.wait false).At ((s.storing i (x.left.headD 0)).onBus b) ∧
      ∀ {n : Nat} {rest : List Job} {v : Word} {t : State} {y : Course},
        Finishes n ((s.storing i (x.left.headD 0)).onBus b) (x.dataRead.wait false) rest v t y →
        Finishes (25 * (s.par.maxPolls + 2) - 1 + n) s x
          ([.transfer .datr, .storeRead i, .waitReady false] ++ rest) v t y := by
  obtain ⟨b, hread, he, hrx⟩ := conducts_dataRead hx hrw (List.ne_nil_of_length_pos (by omega))
  rw [← hrx]
  have hstored : x.dataRead.At ((s.storing i b.rx).onBus b) :=
    ⟨hread.course.par, hread.course.dl, hread.course.ac, hread.course.left, hread.course.late⟩
  obtain ⟨b', hwait, -⟩ := conducts_wait false hstored fun _ => by
    change s.par.maxPolls + 1 ≤ x.left.tail.length
    rw [List.length_tail]
    omega
  refine ⟨b', hwait.low he, hwait.course, fun h => ?_⟩
  have hall := hread.finishes
    (.unfold (unfolds_storeRead (s := s.onBus b) hsize) (hwait.finishes h) rfl rfl rfl rfl)
  refine hall.mono ?_
  change 22 + (25 * (s.par.maxPolls + 1) + 1 + _ + 1) ≤ _
  omega

/-- LCD.READ_ROW's loop from index i on, with `k` bytes yet to read: RBUF gets them in its bytes i to i + k - 1 (R152). -/
theorem finishes_readNext (k : Nat) {s : State} {x : Course} {i : Nat} (hx : x.At s) (hrw : s.par.hasRw = true)
    (hk : i + k = s.work.nXfer.toNat) (hsize : i + k ≤ s.par.bufSize) (hleft : k * (s.par.maxPolls + 2) ≤ x.left.length)
    (hgot : x.got.length = i) (hwf : s.port.rbuf.wf = true) :
    ∃ b m, Finishes (25 * (s.par.maxPolls + 2) * (k + 1)) s x [.readNext i] (zextByte s.work.nXfer)
        ({ s with port.rbuf := m }.onBus b) (x.readRow k) ∧ (0 < k → b.lcd.e = false) ∧
      ∀ a, m.read a = if i ≤ a ∧ a < i + k then (x.readRow k).got.getD a 0 else s.port.rbuf.read a := by
  induction k generalizing s x i with
  | zero =>
    exact ⟨s.bus, s.port.rbuf, (finishes_readNext_done hx (by omega)).mono (by omega), fun h => absurd h (Nat.lt_irrefl 0),
      fun a => (if_neg (by omega)).symm⟩
  | succ k ih =>
    rw [Nat.succ_mul] at hleft
    obtain ⟨b, he, hnext, hbyte⟩ := finishes_readByte (i := i) hx hrw (by omega) (by omega)
    have hrest := x.dataRead_wait_left
    rw [hx.par] at hrest
    obtain ⟨b', m, hloop, -, hm⟩ := ih (i := i + 1) hnext hrw ((Nat.succ_add_eq_add_succ i k).trans hk)
      ((Nat.succ_add_eq_add_succ i k).trans_le hsize) (show k * (s.par.maxPolls + 2) ≤ _ by omega)
      (by rw [Course.wait_got, Course.dataRead, List.length_append, hgot]; rfl) (Memory.write_wf hwf)
    have hall := (hbyte hloop).unfold (unfolds_readNext (by omega)) rfl rfl rfl rfl
    refine ⟨b', m, hall.mono ?_, fun _ => hloop.low he, fun a => ?_⟩
    · change 25 * (s.par.maxPolls + 2) - 1 + 25 * (s.par.maxPolls + 2) * (k + 1) + 1 ≤ _
      rw [Nat.mul_succ _ (k + 1)]
      omega
    · have hstored : ((s.storing i (x.left.headD 0)).onBus b).port.rbuf.read a =
          if a = i then x.left.headD 0 else s.port.rbuf.read a := Memory.read_write hwf
      have hfirst := x.readRow_got_first k
      rw [hgot] at hfirst
      rw [hm, hstored]
      rcases Nat.lt_trichotomy a i with ha | rfl | ha
      · rw [if_neg (by omega), if_neg (by omega), if_neg (by omega)]
      · rw [if_neg (by omega), if_pos rfl, if_pos (by omega), hfirst]
      · rw [if_neg (show a ≠ i by omega)]
        exact if_congr (by omega) rfl rfl

/-- Settles O57: the loop from index 0 on (`finishes_readNext`). -/
theorem readRowCompletes : Obligations.ReadRowCompletes := by
  rintro s n x hinit hrw hwf hpaced hanswered hsize rfl
  have hgot : (Course.readRow n.toNat (Course.start s.cfg.dl s)).got.length = n.toNat := by
    obtain ⟨bs, hbs, hlen⟩ := Course.readRow_got n.toNat (Course.start s.cfg.dl s)
    rw [hbs, List.length_append, hlen]
    exact Nat.zero_add _
  have hexec : exec (.lcdReadRow n) s = .next (lcdJobs [.readNext 0] { clearToflag s with work.nXfer := n }) := by
    change execLcdReadRow n s = _
    rw [execLcdReadRow, lcdPrologue_of_initDone hinit, needsRw_of_hasRw (s := clearToflag s) hrw]
  refine ⟨hgot, _, hexec, rfl, ?_⟩
  have hstart : (Course.start s.cfg.dl s).At (lcdJobs [.readNext 0] { clearToflag s with work.nXfer := n }) :=
    ⟨rfl, rfl, rfl, rfl, rfl⟩
  obtain ⟨b, m, hloop, he, hm⟩ := finishes_readNext n.toNat hstart hrw (Nat.zero_add _) (by rwa [Nat.zero_add])
    (hanswered hrw) rfl hwf
  have hrbuf : m.read = fun a => if a < n.toNat then (Course.readRow n.toNat (Course.start s.cfg.dl s)).got.getD a 0
      else s.port.rbuf.read a := by
    funext a
    rw [hm]
    exact if_congr (by omega) rfl rfl
  have hjobs : 25 * (s.par.maxPolls + 2) * (n.toNat + 1) ≤ 50 * (s.par.maxPolls + 2) * (n.toNat + 2) :=
    Nat.mul_le_mul (by omega) (by omega)
  rw [← hrbuf]
  refine (hloop.mono hjobs).endsAs hpaced rfl rfl ⟨rfl, rfl, rfl, rfl, rfl, rfl, rfl, rfl, rfl, rfl, rfl⟩
    fun hitems => he (Nat.pos_of_ne_zero fun hzero => ?_)
  rw [hzero] at hitems
  exact hitems rfl

end Sys2Proof.Machine
end

section
/-! The encoding (spec/30_encoding.md R61 to R78): the bytes of a CMD word, the operand bits of a byte, and that decoding and
encoding undo each other. -/

namespace Sys2Proof

/-! ### The bytes of a CMD word -/

section

variable (opc high mid low : Byte)

@[simp] theorem cmdOpc_cmdWord : cmdOpc (cmdWord opc high mid low) = opc := by
  rw [cmdOpc, cmdWord, BitVec.append_assoc, BitVec.append_assoc]
  exact BitVec.extractLsb'_append_eq_left

@[simp] theorem cmdHigh_cmdWord : cmdHigh (cmdWord opc high mid low) = high := by
  rw [cmdHigh, cmdWord, BitVec.extractLsb'_append_eq_of_le (by decide), BitVec.extractLsb'_append_eq_of_le (by decide)]
  exact BitVec.extractLsb'_append_eq_right

@[simp] theorem cmdMid_cmdWord : cmdMid (cmdWord opc high mid low) = mid := by
  rw [cmdMid, cmdWord, BitVec.extractLsb'_append_eq_of_le (by decide)]
  exact BitVec.extractLsb'_append_eq_right

@[simp] theorem cmdLow_cmdWord : cmdLow (cmdWord opc high mid low) = low := BitVec.extractLsb'_append_eq_right

end

/-- A CMD word is its four bytes (R62). -/
theorem cmdWord_bytes (w : Word) : cmdWord (cmdOpc w) (cmdHigh w) (cmdMid w) (cmdLow w) = w := by
  have high : cmdOpc w ++ cmdHigh w = w.extractLsb' 16 16 := BitVec.extractLsb'_append_extractLsb'_eq_extractLsb' rfl
  have mid : w.extractLsb' 16 16 ++ cmdMid w = w.extractLsb' 8 24 := BitVec.extractLsb'_append_extractLsb'_eq_extractLsb' rfl
  have low : w.extractLsb' 8 24 ++ cmdLow w = w.extractLsb' 0 32 := BitVec.extractLsb'_append_extractLsb'_eq_extractLsb' rfl
  rw [cmdWord, high, mid, low, BitVec.extractLsb'_eq_self]

theorem cmdWord_inj {a b c d a' b' c' d' : Byte} :
    cmdWord a b c d = cmdWord a' b' c' d' ↔ a = a' ∧ b = b' ∧ c = c' ∧ d = d' := by
  refine ⟨fun h => ?_, by rintro ⟨rfl, rfl, rfl, rfl⟩; rfl⟩
  have hopc := congrArg cmdOpc h
  have hhigh := congrArg cmdHigh h
  have hmid := congrArg cmdMid h
  have hlow := congrArg cmdLow h
  simp only [cmdOpc_cmdWord, cmdHigh_cmdWord, cmdMid_cmdWord, cmdLow_cmdWord] at hopc hhigh hmid hlow
  exact ⟨hopc, hhigh, hmid, hlow⟩

/-! ### The operand bits of a byte -/

/-- Formats DS and CFG read back the three bits they write (R62). -/
theorem lowBits_spec : ∀ b2 b1 b0 : Bool, upperFiveZero (lowBits b2 b1 b0) = true ∧ (lowBits b2 b1 b0)[2] = b2 ∧
    (lowBits b2 b1 b0)[1] = b1 ∧ (lowBits b2 b1 b0)[0] = b0 := by decide

theorem lowBits_of_upperFiveZero : ∀ b : Byte, upperFiveZero b = true →
    lowBits (b.getLsbD 2) (b.getLsbD 1) (b.getLsbD 0) = b := by decide

/-! ### Decoding an encoding -/

theorem decodeCmdw_displayControlByte : ∀ d c b : Bool,
    decodeCmdw (displayControlByte d c b) = .ok (.busDisplayControl d c b) := by decide

theorem decodeCmdw_entryModeByte : ∀ i s : Bool, decodeCmdw (entryModeByte i s) = .ok (.busEntryModeSet i s) := by decide

theorem decodeCmdw_returnHomeByte : ∀ x : Bool, decodeCmdw (returnHomeByte x) = .ok (.busReturnHome x) := by decide

theorem decodeCmdw_functionSetByte : ∀ dl n f : Bool,
    decodeCmdw (functionSetByte dl n f) = .ok (.busFunctionSet dl n f) := by decide

theorem decodeCmdw_setDdramByte (a : BitVec 7) : decodeCmdw (setDdramByte a) = .ok (.busSetDdramAddress a) := by
  have hbit : (setDdramByte a).getLsbD 7 = true := by rw [setDdramByte, BitVec.getLsbD_append]; rfl
  have haddr : (setDdramByte a).extractLsb' 0 7 = a := BitVec.extractLsb'_append_eq_right
  rw [decodeCmdw, if_pos hbit, haddr]

/-- Settles O1: the bytes of the word that `encode` writes are those that `decode` reads. -/
theorem decodeOfEncode : Obligations.DecodeOfEncode := by
  intro i hwf
  cases i with
  | tmrElapsed | tmrResetWait | snsRead | lcdClear | lcdHome | lcdRead | lcdIsBusy | lcdGetSettings | busClearDisplay | busNib3
  | busNib2 | busBusyRead | busDataWrite | busDataRead => rfl
  | lcdWrite | lcdWriteRow | lcdReadRow => simp [encode, decode, decodeCmd, formatB8, reservedZero]
  | lcdSetCursor row col => simp [encode, decode, decodeCmd, formatRC, reservedZero]
  | lcdSetAddress addr =>
    have hbit : addr[7] = false := by simpa [Instr.wellFormed] using hwf
    simp [encode, decode, decodeCmd, formatA7, reservedZero, hbit]
  | lcdSetDisplay d c b => simp [encode, decode, decodeCmd, formatDS, reservedZero, lowBits_spec]
  | lcdInit cols f n dl => simp [encode, decode, decodeCmd, formatCFG, reservedZero, lowBits_spec]
  | busReturnHome x => exact decodeCmdw_returnHomeByte x
  | busEntryModeSet i s => exact decodeCmdw_entryModeByte i s
  | busDisplayControl d c b => exact decodeCmdw_displayControlByte d c b
  | busFunctionSet dl n f => exact decodeCmdw_functionSetByte dl n f
  | busSetDdramAddress a => exact decodeCmdw_setDdramByte a

/-! ### Encoding what was decoded -/

/-- What the decoder gives, if it is an instruction, is well formed and has the encoding `e`. -/
def GivesBack (e : Encoded) (r : Except Reject Instr) : Prop := ∀ i, r = .ok i → encode i = e ∧ i.wellFormed = true

theorem givesBack_ok {e : Encoded} {i : Instr} (he : encode i = e) (hwf : i.wellFormed = true) : GivesBack e (.ok i) := by
  rintro _ ⟨⟩
  exact ⟨he, hwf⟩

theorem givesBack_error {e : Encoded} {r : Reject} : GivesBack e (.error r) := by rintro _ ⟨⟩

theorem givesBack_ite {e : Encoded} {c : Prop} [Decidable c] {r r' : Except Reject Instr} (h : c → GivesBack e r)
    (h' : ¬c → GivesBack e r') : GivesBack e (if c then r else r') := by
  split
  · exact h ‹_›
  · exact h' ‹_›

section

variable {w : Word} {opc : Byte} {r : Except Reject Instr}

/-- A row of R63's map, before the others: the word is the one whose four bytes are the row's. -/
theorem givesBack_row {ok : Bool} {i : Instr} {high mid low : Byte} (henc : encode i = .cmd (cmdWord opc high mid low))
    (h : ok = true → cmdHigh w = high ∧ cmdMid w = mid ∧ cmdLow w = low ∧ i.wellFormed = true) (hr : GivesBack (.cmd w) r) :
    GivesBack (.cmd w) (if cmdOpc w = opc then reservedZero ok i else r) := by
  refine givesBack_ite (fun hopc => ?_) fun _ => hr
  refine givesBack_ite (fun hok => ?_) fun _ => givesBack_error
  obtain ⟨hhigh, hmid, hlow, hwf⟩ := h hok
  exact givesBack_ok (by rw [henc, ← hopc, ← hhigh, ← hmid, ← hlow, cmdWord_bytes]) hwf

theorem givesBack_formatN {i : Instr} (henc : encode i = .cmd (cmdWord opc 0 0 0)) (hwf : i.wellFormed = true)
    (hr : GivesBack (.cmd w) r) : GivesBack (.cmd w) (if cmdOpc w = opc then formatN w i else r) :=
  givesBack_row henc (fun h => by simpa [hwf, and_assoc] using h) hr

theorem givesBack_formatB8 {i : Byte → Instr} (henc : ∀ b, encode (i b) = .cmd (cmdWord opc 0 0 b))
    (hwf : ∀ b, (i b).wellFormed = true) (hr : GivesBack (.cmd w) r) :
    GivesBack (.cmd w) (if cmdOpc w = opc then formatB8 w i else r) :=
  givesBack_row (henc _) (fun h => by simpa [hwf] using h) hr

theorem givesBack_formatA7 {i : Byte → Instr} (henc : ∀ b, encode (i b) = .cmd (cmdWord opc 0 0 b))
    (hwf : ∀ b : Byte, (!b.getLsbD 7) = true → (i b).wellFormed = true) (hr : GivesBack (.cmd w) r) :
    GivesBack (.cmd w) (if cmdOpc w = opc then formatA7 w i else r) := by
  refine givesBack_row (henc _) (fun h => ?_) hr
  rw [Bool.and_eq_true, Bool.and_eq_true, beq_iff_eq, beq_iff_eq] at h
  obtain ⟨⟨hhigh, hmid⟩, hbit⟩ := h
  exact ⟨hhigh, hmid, rfl, hwf _ hbit⟩

theorem givesBack_formatRC {i : Byte → Byte → Instr} (henc : ∀ row col, encode (i row col) = .cmd (cmdWord opc 0 row col))
    (hwf : ∀ row col, (i row col).wellFormed = true) (hr : GivesBack (.cmd w) r) :
    GivesBack (.cmd w) (if cmdOpc w = opc then formatRC w i else r) :=
  givesBack_row (henc _ _) (fun h => by simpa [hwf] using h) hr

theorem givesBack_formatDS {i : Bool → Bool → Bool → Instr}
    (henc : ∀ d c b, encode (i d c b) = .cmd (cmdWord opc 0 0 (lowBits d c b))) (hwf : ∀ d c b, (i d c b).wellFormed = true)
    (hr : GivesBack (.cmd w) r) : GivesBack (.cmd w) (if cmdOpc w = opc then formatDS w i else r) := by
  refine givesBack_row (henc _ _ _) (fun h => ?_) hr
  rw [Bool.and_eq_true, Bool.and_eq_true, beq_iff_eq, beq_iff_eq] at h
  obtain ⟨⟨hhigh, hmid⟩, hlow⟩ := h
  exact ⟨hhigh, hmid, (lowBits_of_upperFiveZero _ hlow).symm, hwf ..⟩

theorem givesBack_formatCFG {i : Byte → Bool → Bool → Bool → Instr}
    (henc : ∀ cols f n dl, encode (i cols f n dl) = .cmd (cmdWord opc 0 cols (lowBits f n dl)))
    (hwf : ∀ cols f n dl, (i cols f n dl).wellFormed = true) (hr : GivesBack (.cmd w) r) :
    GivesBack (.cmd w) (if cmdOpc w = opc then formatCFG w i else r) := by
  refine givesBack_row (henc _ _ _ _) (fun h => ?_) hr
  rw [Bool.and_eq_true, beq_iff_eq] at h
  obtain ⟨hhigh, hlow⟩ := h
  exact ⟨hhigh, rfl, (lowBits_of_upperFiveZero _ hlow).symm, hwf ..⟩

end

/-- The rows of R63's map, one by one. -/
theorem givesBack_decodeCmd (w : Word) : GivesBack (.cmd w) (decodeCmd w) :=
  givesBack_formatN rfl rfl <| givesBack_formatN rfl rfl <| givesBack_formatN rfl rfl <|
    givesBack_formatCFG (fun _ _ _ _ => rfl) (fun _ _ _ _ => rfl) <|
    givesBack_formatDS (fun _ _ _ => rfl) (fun _ _ _ => rfl) <| givesBack_formatN rfl rfl <| givesBack_formatN rfl rfl <|
    givesBack_formatA7 (fun _ => rfl) (fun _ h => h) <| givesBack_formatRC (fun _ _ => rfl) (fun _ _ => rfl) <|
    givesBack_formatB8 (fun _ => rfl) (fun _ => rfl) <| givesBack_formatB8 (fun _ => rfl) (fun _ => rfl) <|
    givesBack_formatN rfl rfl <| givesBack_formatB8 (fun _ => rfl) (fun _ => rfl) <| givesBack_formatN rfl rfl <|
    givesBack_formatN rfl rfl givesBack_error

/-! A CMDW byte is fixed by its highest set bit and its operand bits (R78). -/

theorem setDdramByte_of_bits : ∀ b : Byte, b.getLsbD 7 = true → setDdramByte (b.extractLsb' 0 7) = b := by decide

theorem functionSetByte_of_bits : ∀ b : Byte, ¬b.getLsbD 7 = true → ¬b.getLsbD 6 = true → b.getLsbD 5 = true →
    ¬(b.getLsbD 1 || b.getLsbD 0) = true → functionSetByte (b.getLsbD 4) (b.getLsbD 3) (b.getLsbD 2) = b := by decide

theorem displayControlByte_of_bits : ∀ b : Byte, ¬b.getLsbD 7 = true → ¬b.getLsbD 6 = true → ¬b.getLsbD 5 = true →
    ¬b.getLsbD 4 = true → b.getLsbD 3 = true →
    displayControlByte (b.getLsbD 2) (b.getLsbD 1) (b.getLsbD 0) = b := by decide

theorem entryModeByte_of_bits : ∀ b : Byte, ¬b.getLsbD 7 = true → ¬b.getLsbD 6 = true → ¬b.getLsbD 5 = true →
    ¬b.getLsbD 4 = true → ¬b.getLsbD 3 = true → b.getLsbD 2 = true →
    entryModeByte (b.getLsbD 1) (b.getLsbD 0) = b := by decide

theorem returnHomeByte_of_bits : ∀ b : Byte, ¬b.getLsbD 7 = true → ¬b.getLsbD 6 = true → ¬b.getLsbD 5 = true →
    ¬b.getLsbD 4 = true → ¬b.getLsbD 3 = true → ¬b.getLsbD 2 = true → b.getLsbD 1 = true →
    returnHomeByte (b.getLsbD 0) = b := by decide

theorem clearDisplayByte_of_bits : ∀ b : Byte, ¬b.getLsbD 7 = true → ¬b.getLsbD 6 = true → ¬b.getLsbD 5 = true →
    ¬b.getLsbD 4 = true → ¬b.getLsbD 3 = true → ¬b.getLsbD 2 = true → ¬b.getLsbD 1 = true → b.getLsbD 0 = true →
    (0x01 : Byte) = b := by decide

theorem givesBack_cmdw {b b' : Byte} {i : Instr} (henc : encode i = .bus (.cmdw b')) (hwf : i.wellFormed = true) (h : b' = b) :
    GivesBack (.bus (.cmdw b)) (.ok i) := givesBack_ok (by rw [henc, h]) hwf

/-- The kinds of a CMDW byte, from its highest bit down. -/
theorem givesBack_decodeCmdw (b : Byte) : GivesBack (.bus (.cmdw b)) (decodeCmdw b) := by
  unfold decodeCmdw
  refine givesBack_ite (fun h7 => givesBack_cmdw rfl rfl (setDdramByte_of_bits b h7)) fun h7 => ?_
  refine givesBack_ite (fun _ => givesBack_error) fun h6 => ?_
  refine givesBack_ite (fun h5 => ?functionSet) fun h5 => ?_
  case functionSet =>
    exact givesBack_ite (fun _ => givesBack_error) fun h10 =>
      givesBack_cmdw rfl rfl (functionSetByte_of_bits b h7 h6 h5 h10)
  refine givesBack_ite (fun _ => givesBack_error) fun h4 => ?_
  refine givesBack_ite (fun h3 => givesBack_cmdw rfl rfl (displayControlByte_of_bits b h7 h6 h5 h4 h3)) fun h3 => ?_
  refine givesBack_ite (fun h2 => givesBack_cmdw rfl rfl (entryModeByte_of_bits b h7 h6 h5 h4 h3 h2)) fun h2 => ?_
  refine givesBack_ite (fun h1 => givesBack_cmdw rfl rfl (returnHomeByte_of_bits b h7 h6 h5 h4 h3 h2 h1)) fun h1 => ?_
  exact givesBack_ite (fun h0 => givesBack_cmdw rfl rfl (clearDisplayByte_of_bits b h7 h6 h5 h4 h3 h2 h1 h0)) fun _ =>
    givesBack_error

theorem givesBack_decodeNibble (n : BitVec 4) : GivesBack (.bus (.nib n)) (decodeNibble n) := by
  refine givesBack_ite (fun h3 => ?_) fun _ => givesBack_ite (fun h2 => ?_) fun _ => givesBack_error
  · exact givesBack_ok (by rw [h3]; rfl) rfl
  · exact givesBack_ok (by rw [h2]; rfl) rfl

/-- Settles O2, for a CMD word row by row and for a transfer kind by kind. -/
theorem encodeOfDecode : Obligations.EncodeOfDecode := by
  intro e
  cases e with
  | cmd w => exact givesBack_decodeCmd w
  | bus t =>
    cases t with
    | cmdw b => exact givesBack_decodeCmdw b
    | nib n => exact givesBack_decodeNibble n
    | busyr | datw | datr => exact givesBack_ok rfl rfl

/-! ### The legal CMD words -/

/-- The masks and matches of the opcode table, byte by byte. -/
theorem hostOpRows_bytes : Machine.hostOpRows =
    [(cmdWord 0xFF 0xFF 0xFF 0xFF, cmdWord 0x01 0 0 0), (cmdWord 0xFF 0xFF 0xFF 0xFF, cmdWord 0x02 0 0 0),
      (cmdWord 0xFF 0xFF 0xFF 0xFF, cmdWord 0x10 0 0 0), (cmdWord 0xFF 0xFF 0x00 0xF8, cmdWord 0x20 0 0 0),
      (cmdWord 0xFF 0xFF 0xFF 0xF8, cmdWord 0x21 0 0 0), (cmdWord 0xFF 0xFF 0xFF 0xFF, cmdWord 0x22 0 0 0),
      (cmdWord 0xFF 0xFF 0xFF 0xFF, cmdWord 0x23 0 0 0), (cmdWord 0xFF 0xFF 0xFF 0x80, cmdWord 0x24 0 0 0),
      (cmdWord 0xFF 0xFF 0x00 0x00, cmdWord 0x25 0 0 0), (cmdWord 0xFF 0xFF 0xFF 0x00, cmdWord 0x26 0 0 0),
      (cmdWord 0xFF 0xFF 0xFF 0x00, cmdWord 0x27 0 0 0), (cmdWord 0xFF 0xFF 0xFF 0xFF, cmdWord 0x28 0 0 0),
      (cmdWord 0xFF 0xFF 0xFF 0x00, cmdWord 0x29 0 0 0), (cmdWord 0xFF 0xFF 0xFF 0xFF, cmdWord 0x2A 0 0 0),
      (cmdWord 0xFF 0xFF 0xFF 0xFF, cmdWord 0x2B 0 0 0)] := by decide

theorem cmdWord_and_cmdWord (a b c d a' b' c' d' : Byte) :
    cmdWord a b c d &&& cmdWord a' b' c' d' = cmdWord (a &&& a') (b &&& b') (c &&& c') (d &&& d') := by
  have upper : a ++ b ++ c &&& a' ++ b' ++ c' = (a &&& a') ++ (b &&& b') ++ (c &&& c') := by
    rw [BitVec.and_append, BitVec.and_append]
  rw [cmdWord, cmdWord, cmdWord, ← upper]
  exact BitVec.and_append

/-- A word agrees with a row when its four bytes do. -/
theorem agrees_iff_bytes (w : Word) (m3 m2 m1 m0 v3 v2 v1 v0 : Byte) :
    w &&& cmdWord m3 m2 m1 m0 = cmdWord v3 v2 v1 v0 ↔
      cmdOpc w &&& m3 = v3 ∧ cmdHigh w &&& m2 = v2 ∧ cmdMid w &&& m1 = v1 ∧ cmdLow w &&& m0 = v0 := by
  rw [← cmdWord_inj, ← cmdWord_and_cmdWord, cmdWord_bytes]

theorem upperFiveZero_iff_mask : ∀ b : Byte, upperFiveZero b = true ↔ b &&& 0xF8 = 0 := by decide

theorem bitSeven_iff_mask : ∀ b : Byte, (!b.getLsbD 7) = true ↔ b &&& 0x80 = 0 := by decide

theorem byte_and_full (b : Byte) : b &&& 0xFF#8 = b := BitVec.and_allOnes

/-- The decoder accepts a word exactly when the word agrees with one of the rows. -/
def AcceptsRows (w : Word) (r : Except Reject Instr) (rows : List (Word × Word)) : Prop :=
  (∃ i, r = .ok i) ↔ (rows.any fun row => w &&& row.1 == row.2) = true

/-- Each of the rows has an OPC, and another than `opc`. -/
def otherOpcs (opc : Byte) (rows : List (Word × Word)) : Bool :=
  rows.all fun row => cmdOpc row.1 == 0xFF#8 && cmdOpc row.2 != opc

section

variable {w : Word} {opc : Byte} {r : Except Reject Instr} {rows : List (Word × Word)}

/-- A word agrees with no row of another OPC. -/
theorem agrees_none (hopc : cmdOpc w = opc) (hrows : otherOpcs opc rows = true) :
    (rows.any fun row => w &&& row.1 == row.2) = false := by
  rw [List.any_eq_false]
  rintro ⟨mask, value⟩ hmem hagrees
  have hother := List.all_eq_true.1 hrows _ hmem
  rw [Bool.and_eq_true, beq_iff_eq, bne_iff_ne] at hother
  obtain ⟨hmask, hvalue⟩ := hother
  rw [beq_iff_eq, ← cmdWord_bytes mask, ← cmdWord_bytes value, agrees_iff_bytes, hmask, byte_and_full, hopc] at hagrees
  exact hvalue hagrees.1.symm

/-- A row of R63's map, before the others, whose mask says which bits are reserved. -/
theorem acceptsRows_row {ok : Bool} {i : Instr} {high mid low : Byte}
    (hok : ok = true ↔ cmdHigh w &&& high = 0 ∧ cmdMid w &&& mid = 0 ∧ cmdLow w &&& low = 0)
    (hrows : otherOpcs opc rows = true) (h : AcceptsRows w r rows) :
    AcceptsRows w (if cmdOpc w = opc then reservedZero ok i else r)
      ((cmdWord 0xFF#8 high mid low, cmdWord opc 0 0 0) :: rows) := by
  unfold AcceptsRows
  rw [List.any_cons, Bool.or_eq_true, beq_iff_eq, agrees_iff_bytes, byte_and_full, ← hok]
  split
  case isTrue hopc =>
    rw [agrees_none hopc hrows]
    cases ok <;> simp [reservedZero, hopc]
  case isFalse hopc =>
    simp only [hopc, false_and, false_or]
    exact h

theorem acceptsRows_formatN {i : Instr} (hrows : otherOpcs opc rows = true) (h : AcceptsRows w r rows) :
    AcceptsRows w (if cmdOpc w = opc then formatN w i else r)
      ((cmdWord 0xFF#8 0xFF 0xFF 0xFF, cmdWord opc 0 0 0) :: rows) :=
  acceptsRows_row (by simp [byte_and_full, and_assoc]) hrows h

theorem acceptsRows_formatB8 {i : Byte → Instr} (hrows : otherOpcs opc rows = true) (h : AcceptsRows w r rows) :
    AcceptsRows w (if cmdOpc w = opc then formatB8 w i else r)
      ((cmdWord 0xFF#8 0xFF 0xFF 0x00, cmdWord opc 0 0 0) :: rows) :=
  acceptsRows_row (by simp [byte_and_full]) hrows h

theorem acceptsRows_formatA7 {i : Byte → Instr} (hrows : otherOpcs opc rows = true) (h : AcceptsRows w r rows) :
    AcceptsRows w (if cmdOpc w = opc then formatA7 w i else r)
      ((cmdWord 0xFF#8 0xFF 0xFF 0x80, cmdWord opc 0 0 0) :: rows) :=
  acceptsRows_row (by rw [Bool.and_eq_true, bitSeven_iff_mask]; simp [byte_and_full, and_assoc]) hrows h

theorem acceptsRows_formatRC {i : Byte → Byte → Instr} (hrows : otherOpcs opc rows = true) (h : AcceptsRows w r rows) :
    AcceptsRows w (if cmdOpc w = opc then formatRC w i else r)
      ((cmdWord 0xFF#8 0xFF 0x00 0x00, cmdWord opc 0 0 0) :: rows) :=
  acceptsRows_row (by simp [byte_and_full]) hrows h

theorem acceptsRows_formatDS {i : Bool → Bool → Bool → Instr} (hrows : otherOpcs opc rows = true)
    (h : AcceptsRows w r rows) : AcceptsRows w (if cmdOpc w = opc then formatDS w i else r)
      ((cmdWord 0xFF#8 0xFF 0xFF 0xF8, cmdWord opc 0 0 0) :: rows) :=
  acceptsRows_row (by rw [Bool.and_eq_true, upperFiveZero_iff_mask]; simp [byte_and_full, and_assoc]) hrows h

theorem acceptsRows_formatCFG {i : Byte → Bool → Bool → Bool → Instr} (hrows : otherOpcs opc rows = true)
    (h : AcceptsRows w r rows) : AcceptsRows w (if cmdOpc w = opc then formatCFG w i else r)
      ((cmdWord 0xFF#8 0xFF 0x00 0xF8, cmdWord opc 0 0 0) :: rows) :=
  acceptsRows_row (by rw [Bool.and_eq_true, upperFiveZero_iff_mask]; simp [byte_and_full]) hrows h

end

/-- Settles O3: the decoder's rows and the table's, one by one, in the same order. -/
theorem legalCmdWords : Obligations.LegalCmdWords := by
  intro w
  rw [Machine.legalCmd, hostOpRows_bytes]
  exact acceptsRows_formatN (by decide) <| acceptsRows_formatN (by decide) <| acceptsRows_formatN (by decide) <|
    acceptsRows_formatCFG (by decide) <| acceptsRows_formatDS (by decide) <| acceptsRows_formatN (by decide) <|
    acceptsRows_formatN (by decide) <| acceptsRows_formatA7 (by decide) <| acceptsRows_formatRC (by decide) <|
    acceptsRows_formatB8 (by decide) <| acceptsRows_formatB8 (by decide) <| acceptsRows_formatN (by decide) <|
    acceptsRows_formatB8 (by decide) <| acceptsRows_formatN (by decide) <| acceptsRows_formatN (by decide) <|
    show AcceptsRows w (.error _) [] from ⟨by rintro ⟨_, ⟨⟩⟩, by simp⟩

/-- Settles O4: each word is a closed term, and the decoder computes. -/
theorem decodeSampleWords : Obligations.DecodeSampleWords := ⟨rfl, rfl, rfl, rfl, rfl, rfl, rfl, rfl⟩

end Sys2Proof
end

section
/-! The raise as a step of its own (spec/60_exceptions.md R161), after an illegal word (spec/30_encoding.md R65) and after a
read transfer without an RW pin; and the write transfers (spec/42_lcd_bus.md R123 to R125). -/

namespace Sys2Proof.Machine

/-! ### The step of a raise -/

/-- The step of a raise, when it is the only job ahead. -/
theorem step_raise {s : State} {st : Status} (hi : s.inputs = []) (hb : s.port.opbusy = true) (ht : s.todo = [.raise st]) :
    step s = .next (raise st (forgetAfter st (takeJob [] (advanceTimer s)))) :=
  step_job_advance hi hb ht (by simp) rfl

/-- A raise ends the operation with its code, and VAL is some value (R161). -/
theorem raisedError_raise {st : Status} {s u : State} (h : u.obs.results = s.obs.results) : RaisedError st s (raise st u) :=
  ⟨_, rfl, rfl, rfl, rfl, rfl, congrArg (· ++ [(raise st u).port.result]) h⟩

/-- The timer's move does not look at the controller's position. -/
theorem advanceTimer_position (s : State) (ph : Phase) (js : List Job) :
    advanceTimer { s with phase := ph, todo := js } = { advanceTimer s with phase := ph, todo := js } := by
  simp only [advanceTimer, drawTicks, ticks]
  cases s.env.ticks with
  | nil | cons => rfl

/-! ### An illegal word -/

@[simp] theorem takeInput_ac (s : State) : (takeInput s).ac = s.ac := advanceTimer_ac s
@[simp] theorem takeInput_toflag (s : State) : (takeInput s).toflag = s.toflag := advanceTimer_toflag s

theorem decodeCmd_error {w : Word} (h : legalCmd w = false) : ∃ r, decodeCmd w = .error r := by
  cases hd : decodeCmd w with
  | error r => exact ⟨r, rfl⟩
  | ok i => exact absurd ((legalCmdWords w).1 ⟨i, hd⟩) (by simp [h])

/-- An illegal word written while no operation runs: the raise is ahead (R14, R65). -/
theorem step_illegalWord {s : State} {w : Word} {rest : List Input} (hi : s.inputs = .writeCmd w :: rest)
    (hb : s.port.opbusy = false) (hw : legalCmd w = false) : step s = .next (rejectWord w (takeInput s)) := by
  obtain ⟨r, hd⟩ := decodeCmd_error hw
  rw [step_eq_answer, fetch, fetchInput, advanceTimer_inputs, hi]
  change (hostWrite _ (fetchCmd w { advanceTimer s with inputs := rest })).answer = _
  rw [hostWrite_of_idle (by simpa using hb), takeInput_eq hi, fetchCmd, hd]
  rfl

/-- Settles O6: the write (`step_illegalWord`), then the raise (`step_raise`). -/
theorem illegalWordGivesStatusEight : Obligations.IllegalWordGivesStatusEight := by
  rintro s w hi ⟨hb, -, -⟩ hw
  have hmoved : advanceTimer (rejectWord w (takeInput s)) =
      { advanceTimer (accept w (takeInput s)) with phase := .lcdRun 0, todo := [.raise .illegalOp] } :=
    advanceTimer_position (accept w (takeInput s)) (.lcdRun 0) [.raise .illegalOp]
  have hraise := step_raise (s := rejectWord w (takeInput s)) (by rw [rejectWord_inputs, takeInput_inputs, hi]; rfl) rfl rfl
  rw [takeInput_eq hi]
  refine ⟨_, _, step_illegalWord hi hb hw, by simp, hraise, rfl, by simp [forgetAfter],
    raisedError_raise (by simp [forgetAfter]), ?_⟩
  simp [forgetAfter, hmoved]

/-! ### A read transfer without an RW pin -/

/-- Settles O41: without the pin the transfer leaves the raise alone ahead (`step_raise`). -/
theorem busReadsNeedTheReadPin : Obligations.BusReadsNeedTheReadPin := by
  intro s i hread hrw hi hb
  have hexec : exec i s = .next (abort .notSupported (forgetLcd s)) := by
    rcases hread with rfl | rfl
    · exact if_neg (by simp [hrw])
    · exact if_neg (by simp [hrw])
  refine ⟨_, hexec, rfl, rfl, _, step_raise hi hb rfl, raisedError_raise (by simp [forgetAfter]), ?_⟩
  simp [forgetAfter, LcdKeeps]

/-! ### The write transfers -/

/-- A transfer's meaning puts jobs before the others that show as the items, leave E = 0, and change nothing but the LCD pins
and AC_SHADOW. -/
def Transfers (s : State) (o : Answer) (items : List Item) (ac : BitVec 7) : Prop :=
  ∃ js lcd, o = .next (push js s) ∧ lcd.e = false ∧ Performs 60 s js items { s with lcd := lcd, ac := ac }

/-- XferWrite(rs, b) and what follows it, which makes `f` of AC_SHADOW (R123, R125, R131). -/
theorem transfers_xferWrite (s : State) (rs : Bool) (b : Byte) {after : List Job} {f : BitVec 7 → BitVec 7}
    (hafter : ∀ t : State, Performs 1 t after [] { t with ac := f t.ac }) :
    Transfers s (.next (push (xferWrite s.par s.cfg.dl rs b ++ after) s)) (writeItems s.par s.cfg.dl rs b) (f s.ac) := by
  obtain ⟨lcd, he, hsend⟩ := performs_xferWrite s rs b
  exact ⟨_, lcd, rfl, he, ((hsend.trans (hafter _)).of_items_eq (List.append_nil _)).mono (by decide)⟩

/-- A write transfer without an AC_SHADOW update (R131). -/
theorem transfers_plain (s : State) (rs : Bool) (b : Byte) :
    Transfers s (.next (push (xferWrite s.par s.cfg.dl rs b ++ []) s)) (writeItems s.par s.cfg.dl rs b) s.ac :=
  transfers_xferWrite s rs b (f := id) fun t => (Performs.nil t).mono (by decide)

/-- A write transfer that sets AC_SHADOW (R131). -/
theorem transfers_setAc (s : State) (rs : Bool) (b : Byte) (a : BitVec 7) :
    Transfers s (.next (push (xferWrite s.par s.cfg.dl rs b ++ [.setAc a]) s)) (writeItems s.par s.cfg.dl rs b) a :=
  transfers_xferWrite s rs b (f := fun _ => a) fun t => performs_setAc t a

/-- NibbleCycle(n) is one write cycle (R124). -/
theorem performs_nibbleCycle (s : State) (n : BitVec 4) :
    ∃ lcd, lcd.e = false ∧
      Performs 10 s (nibbleCycle s.par s.cfg.dl n) (nibbleItems s.par s.cfg.dl n) { s with lcd := lcd } :=
  ⟨_, rfl, performs_busCycleWrite s false _⟩

theorem transfers_nibbleCycle (s : State) (n : BitVec 4) :
    Transfers s (.next (push (nibbleCycle s.par s.cfg.dl n) s)) (nibbleItems s.par s.cfg.dl n) s.ac := by
  obtain ⟨lcd, he, h⟩ := performs_nibbleCycle s n
  exact ⟨_, lcd, rfl, he, h.mono (by decide)⟩

/-- Settles O39: each transfer is XferWrite with its AC_SHADOW update (`transfers_xferWrite`), or one nibble
(`transfers_nibbleCycle`). -/
theorem writeTransfersComplete : Obligations.WriteTransfersComplete := by
  intro s i items ac hpaced hi
  have htransfers : Transfers s (exec i s) items ac := by
    rcases hi with h | ⟨x, h⟩ | ⟨e, sh, h⟩ | ⟨d, c, k, h⟩ | ⟨dl, n, f, h⟩ | h | h | ⟨a, h⟩ | ⟨v, h⟩ <;> cases h
    · exact transfers_setAc s false 0x01 0
    · exact transfers_setAc s false (returnHomeByte x) 0
    · exact transfers_plain s false (entryModeByte e sh)
    · exact transfers_plain s false (displayControlByte d c k)
    · exact transfers_plain s false (functionSetByte dl n f)
    · exact transfers_nibbleCycle s 3
    · exact transfers_nibbleCycle s 2
    · exact transfers_setAc s false (setDdramByte ac) ac
    · exact transfers_xferWrite s true v (f := (· + 1)) performs_incAc
  obtain ⟨js, lcd, hexec, he, h⟩ := htransfers
  obtain ⟨hin, hbusy, hticks, hk⟩ := hpaced
  obtain ⟨k, ph, c, evs, -, hrun, hshows⟩ := h.runs hin hbusy s.todo s.phase s.cnt s.env.ticks s.obs.log hticks hk
  exact ⟨_, hexec, k, _, evs, hrun, ⟨rfl, rfl, rfl, rfl, rfl, rfl, rfl, rfl, rfl, rfl, rfl⟩, rfl, rfl, he, rfl, hshows⟩

end Sys2Proof.Machine
end

section
/-! The LCD operations that make one transfer (spec/43_lcd_ops.md R143 to R153), from their start to their end: the transfer,
the wait until ready and the epilogue, each as the operation's course has it. -/

namespace Sys2Proof.Machine

/-! ### Transfers without an AC_SHADOW update -/

/-- A transfer whose jobs write the LCD pins alone and leave E = 0. -/
theorem conducts_plain {s : State} {x : Course} {w : BusWord} {i : Instr} {js : List Job} {items : List Item} {lcd : LcdPins}
    (hx : x.At s) (hd : decodeBus w = .ok i) (hexec : ∀ u, u.par = s.par → u.cfg = s.cfg → exec i u = .next (push js u))
    (h : Performs 20 s js items { s with lcd := lcd }) (he : lcd.e = false) :
    ∃ b, Conducts 22 s x [.transfer w] b (x.more items) ∧ b.lcd.e = false :=
  ⟨{ s.bus with lcd := lcd },
    ⟨⟨items, rfl, ((unfolds_transfer hd hexec).performs rfl rfl rfl h).mono (by decide)⟩,
      ⟨hx.par, hx.dl, hx.ac, hx.left, hx.late⟩, fun _ => he⟩, he⟩

/-- A command byte that leaves AC_SHADOW (R123, R125, R131). -/
theorem conducts_send {s : State} {x : Course} {byte : Byte} {i : Instr} (hx : x.At s) (hd : decodeCmdw byte = .ok i)
    (hexec : ∀ u, exec i u = issueCommand byte [] u) :
    ∃ b, Conducts 22 s x [.transfer (.cmdw byte)] b (x.send false byte) ∧ b.lcd.e = false := by
  obtain ⟨lcd, he, hsend⟩ := performs_xferWrite s false byte
  rw [Course.send, hx.par, hx.dl]
  refine conducts_plain hx hd (fun u hpar hcfg => ?_) hsend he
  rw [hexec, issueCommand, hpar, hcfg, List.append_nil]

/-- A single nibble (R74, R124). -/
theorem conducts_nibble {s : State} {x : Course} {n : BitVec 4} {i : Instr} (hx : x.At s) (hd : decodeNibble n = .ok i)
    (hexec : ∀ u, exec i u = .next (push (nibbleCycle u.par u.cfg.dl n) u)) :
    ∃ b, Conducts 22 s x [.transfer (.nib n)] b (x.more (nibbleItems x.par x.dl n)) ∧ b.lcd.e = false := by
  obtain ⟨lcd, he, h⟩ := performs_nibbleCycle s n
  rw [hx.par, hx.dl]
  exact conducts_plain hx hd (fun u hpar hcfg => by rw [hexec, hpar, hcfg]) (h.mono (by decide)) he

/-! ### Transfers with their waits -/

/-- Jobs that leave E = 0 and then a wait: of answers for `k + 1` waits, those for `k` are left (R128, R132). -/
theorem conducts_thenWait (long : Bool) {n k : Nat} {s : State} {x y : Course} {js : List Job} {b : BusPart}
    (h : Conducts n s x js b y) (he : b.lcd.e = false)
    (hleft : s.par.hasRw = true → (k + 1) * (s.par.maxPolls + 2) ≤ y.left.length) :
    ∃ b', Conducts (n + (25 * (s.par.maxPolls + 1) + 1)) s x (js ++ [.waitReady long]) b' (y.wait long) ∧ b'.lcd.e = false ∧
      (s.par.hasRw = true → k * (s.par.maxPolls + 2) ≤ (y.wait long).left.length) := by
  have htaken : y.left.length ≤ (y.wait long).left.length + (s.par.maxPolls + 1) := h.course.par ▸ y.wait_left long
  rw [Nat.succ_mul] at hleft
  obtain ⟨b', hwait, -⟩ := conducts_wait long h.course fun (hrw : s.par.hasRw = true) =>
    show s.par.maxPolls + 1 ≤ _ by have := hleft hrw; omega
  exact ⟨b', h.trans hwait, hwait.low he, fun hrw => by have := hleft hrw; omega⟩

/-- An operation that makes one transfer, waits, and then ends with its epilogue (R136). -/
theorem endsAs_transferWait {s : State} {y : Course} {w : BusWord} {long : Bool} {v : Word} {t : State}
    (ht : t = lcdJobs [.transfer w, .waitReady long, .lcdEnd v] (clearToflag s))
    (hpaced : Paced (50 * (s.par.maxPolls + 2)) s)
    (hsend : ∃ b, Conducts 22 t (Course.start s.cfg.dl s) [.transfer w] b y ∧ b.lcd.e = false)
    (hleft : s.par.hasRw = true → (0 + 1) * (s.par.maxPolls + 2) ≤ y.left.length) :
    EndsAs (y.wait long) v s.set s.cfg s.port.rbuf.read s t := by
  subst ht
  obtain ⟨b, hsend, he⟩ := hsend
  obtain ⟨b', hwait, he', -⟩ := conducts_thenWait long hsend he hleft
  have hends := hwait.finishes (finishes_lcdEnd hwait.course v)
  have hjobs : 22 + (25 * (s.par.maxPolls + 1) + 1) + 1 ≤ 50 * (s.par.maxPolls + 2) := by omega
  exact (hends.mono hjobs).endsAs hpaced rfl rfl ⟨rfl, rfl, rfl, rfl, rfl, rfl, rfl, rfl, rfl, rfl, rfl⟩ fun _ => he'

/-- Settles O51: a command that sets AC_SHADOW to 0, with the long wait. -/
theorem clearAndHomeComplete : Obligations.ClearAndHomeComplete := by
  intro s i byte hi hinit hpaced hanswered
  have hbyte : ∃ j, decodeCmdw byte = .ok j ∧ (∀ u, exec j u = issueCommand byte [.setAc 0] u) ∧
      exec i s = .next (lcdJobs [.transfer (.cmdw byte), .waitReady true, .lcdEnd 0] (clearToflag s)) := by
    rcases hi with hi | hi
    · cases hi
      exact ⟨_, rfl, fun _ => rfl, lcdPrologue_of_initDone hinit _⟩
    · cases hi
      exact ⟨_, rfl, fun _ => rfl, lcdPrologue_of_initDone hinit _⟩
  obtain ⟨j, hd, hcommand, hexec⟩ := hbyte
  refine ⟨_, hexec, rfl, endsAs_transferWait rfl hpaced ?_ hanswered⟩
  exact conducts_write (Course.start_at_lcdJobs s _) hd hcommand (.inl rfl)

/-- Settles O52: a set-address transfer (`conducts_setAddress`) of an address whose bit 7 is clear. -/
theorem setAddressCompletes : Obligations.SetAddressCompletes := by
  intro s addr haddr hinit hpaced hanswered
  have hbit : addr.getLsbD 7 = false := Nat.testBit_lt_two_pow haddr
  have hexec : exec (.lcdSetAddress addr) s =
      .next (lcdJobs [.transfer (.cmdw (0x80 ||| addr)), .waitReady false, .lcdEnd 0] (clearToflag s)) := by
    change execLcdSetAddress addr s = _
    rw [execLcdSetAddress, hbit, if_neg (by decide), lcdPrologue_of_initDone hinit]
    rfl
  exact ⟨_, hexec, rfl, endsAs_transferWait rfl hpaced (conducts_setAddress (Course.start_at_lcdJobs s _) addr) hanswered⟩

/-- Settles O54: a data write (`conducts_dataWrite`). -/
theorem writeCompletes : Obligations.WriteCompletes := by
  intro s data hinit hpaced hanswered
  exact ⟨_, lcdPrologue_of_initDone hinit _, rfl,
    endsAs_transferWait rfl hpaced (conducts_dataWrite (Course.start_at_lcdJobs s _) data) hanswered⟩

/-- SET_D, SET_C, SET_B <- D, C, B, and then the epilogue (R136, R143). -/
theorem finishes_setSettings {s : State} {x : Course} (hx : x.At s) (d c b : Bool) :
    Finishes 2 s x [.setSettings d c b, .lcdEnd 0] 0 { s with set := ⟨d, c, b⟩ } x := by
  have hset : Unfolds s (.setSettings d c b) [] { s with set := ⟨d, c, b⟩ } := unfolds_job (by simp) rfl fun _ _ _ _ _ => rfl
  have hx' : x.At { s with set := ⟨d, c, b⟩ } := ⟨hx.par, hx.dl, hx.ac, hx.left, hx.late⟩
  exact (finishes_lcdEnd hx' 0).unfold hset rfl rfl rfl rfl

/-- Settles O50: the settings are written after the wait, however it ended. -/
theorem setDisplayCompletes : Obligations.SetDisplayCompletes := by
  intro s d c b hinit hpaced hanswered
  refine ⟨_, lcdPrologue_of_initDone hinit _, rfl, ?_⟩
  obtain ⟨p, hsend, he⟩ := conducts_send (Course.start_at_lcdJobs s (command (displayControlByte d c b) false ++
    [.setSettings d c b, .lcdEnd 0])) (decodeCmdw_displayControlByte d c b) fun _ => rfl
  obtain ⟨p', hwait, he', -⟩ := conducts_thenWait false (k := 0) hsend he hanswered
  have hends := hwait.finishes (finishes_setSettings hwait.course d c b)
  have hjobs : 22 + (25 * (s.par.maxPolls + 1) + 1) + 2 ≤ 50 * (s.par.maxPolls + 2) := by omega
  exact (hends.mono hjobs).endsAs hpaced rfl rfl ⟨rfl, rfl, rfl, rfl, rfl, rfl, rfl, rfl, rfl, rfl, rfl⟩ fun _ => he'

/-! ### LCD.READ and LCD.IS_BUSY -/

/-- The controller's first answer is the one that a course takes first. -/
theorem Course.start_left_headD (s : State) : (Course.start s.cfg.dl s).left.headD 0 = answer s.cfg.dl s 0 := by
  rw [Course.start, answer]
  cases answers s.cfg.dl s.env.pins with
  | nil | cons => rfl

/-- An operation that reads starts its jobs when INIT_DONE = 1 and there is an RW pin (R136, R138, R151). -/
theorem lcdPrologue_needsRw {s : State} (hinit : s.cfg.initDone = true) (hrw : s.par.hasRw = true) (body : State → State) :
    lcdPrologue (needsRw body) s = .next (body (clearToflag s)) := by
  rw [lcdPrologue_of_initDone hinit, needsRw_of_hasRw (s := clearToflag s) hrw]

/-- LCD.READ keeps its byte, waits, and then ends with it (R151). -/
theorem finishes_readEnd {s : State} {x : Course} (hx : x.At s)
    (hleft : s.par.hasRw = true → s.par.maxPolls + 1 ≤ x.left.length) :
    ∃ b, Finishes (25 * (s.par.maxPolls + 1) + 3) s x [.readEnd] (zextByte s.work.rx) (s.onBus b) (x.wait false) ∧
      (s.lcd.e = false → b.lcd.e = false) := by
  have hu : Unfolds s .readEnd [.waitReady false, .lcdEnd (zextByte s.work.rx)] s :=
    unfolds_job (by simp) rfl fun _ _ _ _ _ => rfl
  obtain ⟨b, hwait, -⟩ := conducts_wait false hx hleft
  exact ⟨b, (hwait.finishes (finishes_lcdEnd hwait.course _)).unfold hu rfl rfl rfl rfl, hwait.low⟩

/-- Settles O56: a data read (`conducts_dataRead`), then `finishes_readEnd`. -/
theorem readCompletes : Obligations.ReadCompletes := by
  rintro s x hinit hrw hpaced hanswered rfl
  refine ⟨_, lcdPrologue_needsRw hinit hrw _, rfl, ?_⟩
  have hlen : s.par.maxPolls + 2 ≤ (Course.start s.cfg.dl s).left.length := by
    rw [← Nat.one_mul (_ + 2)]
    exact hanswered hrw
  obtain ⟨b, hread, he, hrx⟩ := conducts_dataRead (Course.start_at_lcdJobs s _) hrw (List.ne_nil_of_length_pos (by omega))
  obtain ⟨b', hend, hlow⟩ := finishes_readEnd hread.course fun _ => by
    change s.par.maxPolls + 1 ≤ (Course.start s.cfg.dl s).left.tail.length
    rw [List.length_tail]
    omega
  rw [Course.start_left_headD] at hrx
  have hends := hread.finishes hend
  change Finishes _ _ _ _ (zextByte b.rx) _ _ at hends
  rw [hrx] at hends
  have hjobs : 22 + (25 * (s.par.maxPolls + 1) + 3) ≤ 50 * (s.par.maxPolls + 2) := by omega
  exact (hends.mono hjobs).endsAs hpaced rfl rfl ⟨rfl, rfl, rfl, rfl, rfl, rfl, rfl, rfl, rfl, rfl, rfl⟩ fun _ => hlow he

/-- LCD.IS_BUSY's end, when no wait has timed out: STATUS 0 and the byte read (R153). -/
theorem finishes_busyEnd {s : State} {x : Course} (hx : x.At s) (hlate : x.late = false) :
    Finishes 1 s x [.busyEnd] (zextByte s.work.rx) s x :=
  finishes_job hx (by simp) rfl fun ph c ticks log => by
    have hflag : (s.atPlace [] ph c ticks log).toflag = false := hx.late.symm.trans hlate
    rw [runLcdEnd, hflag]
    rfl

/-- Settles O58: a busy read (`conducts_busyRead`), then the end. -/
theorem isBusyCompletes : Obligations.IsBusyCompletes := by
  intro s hinit hrw hpaced hlen
  refine ⟨_, lcdPrologue_needsRw hinit hrw _, rfl, ?_⟩
  obtain ⟨b, hread, he, hrx, -⟩ := conducts_busyRead (Course.start_at_lcdJobs s _) hrw (List.ne_nil_of_length_pos hlen)
  have hends := hread.finishes (finishes_busyEnd hread.course rfl)
  change Finishes _ _ _ _ (zextByte b.rx) _ _ at hends
  rw [hrx, Course.start_left_headD] at hends
  exact (hends.mono (by decide)).endsAs hpaced rfl rfl ⟨rfl, rfl, rfl, rfl, rfl, rfl, rfl, rfl, rfl, rfl, rfl⟩ fun _ => he

end Sys2Proof.Machine
end

section
/-! LCD.INIT from its start to its end (spec/43_lcd_ops.md R139, R140): the power-on delay, the function sets of either bus
width, and the three commands with their waits. -/

namespace Sys2Proof.Machine

/-! ### The function sets -/

theorem Course.more_more (x : Course) (as bs : List Item) : (x.more as).more bs = x.more (as ++ bs) := by
  rw [Course.more, Course.more, Course.more, List.append_assoc]

theorem Params.initRepeat_of_legal {par : Params} (h : par.legal = true) : par.initRepeat = 1 ∨ par.initRepeat = 3 := by
  simpa [Params.legal] using h

/-- DelayMs(m) (R91). -/
theorem conducts_delayMs {s : State} {x : Course} (hx : x.At s) (m : Nat) :
    Conducts 1 s x [.delayMs m] s.bus (x.more [.ev (.delayMs m)]) :=
  ⟨⟨_, rfl, performs_job rfl rfl rfl (by simp) (fun _ => rfl) (fun _ _ _ _ _ => rfl) (shows_ev _)⟩,
    ⟨hx.par, hx.dl, hx.ac, hx.left, hx.late⟩, id⟩

theorem initWait_le_longestWait (par : Params) (k : Nat) : (initWait par k).toNat ≤ longestWait par := by
  unfold initWait longestWait
  split <;> omega

/-- Jobs and then a wait of a number of ticks. -/
theorem conducts_thenPause {n : Nat} {s : State} {x y : Course} {js : List Job} {b : BusPart} (h : Conducts n s x js b y)
    {m : Word} (hm : m.toNat ≤ longestWait s.par) : Conducts (n + 1) s x (js ++ waitTicks m) b (y.pause m) :=
  h.trans (conducts_pause h.course hm)

/-- A FUNCTION_SET of the new configuration (R74). -/
theorem conducts_functionSet {s : State} {x : Course} (hx : x.At s) (dl n f : Bool) :
    ∃ b, Conducts 22 s x [.transfer (.cmdw (functionSetByte dl n f))] b (x.send false (functionSetByte dl n f)) ∧
      b.lcd.e = false :=
  conducts_send hx (decodeCmdw_functionSetByte dl n f) fun _ => rfl

theorem Course.initSets8_left (fs : Byte) (x : Course) : (x.initSets8 fs).left = x.left := by
  unfold Course.initSets8
  split
  · rfl
  · rfl

/-- The function sets of an 8-bit bus, with the waits between them (R140). -/
theorem conducts_initSets8 {s : State} {x : Course} (hx : x.At s) (hlegal : s.par.legal = true) (dl n f : Bool) :
    ∃ b, Conducts 90 s x (initSets8 s.par (functionSetByte dl n f) s.par.initRepeat 1) b
      (x.initSets8 (functionSetByte dl n f)) ∧ b.lcd.e = false := by
  unfold Course.initSets8
  rw [hx.par]
  rcases Params.initRepeat_of_legal hlegal with hone | hthree
  · rw [hone, if_pos rfl]
    obtain ⟨b, h, he⟩ := conducts_functionSet hx dl n f
    exact ⟨b, h.mono (by decide), he⟩
  · rw [hthree, if_neg (by decide)]
    obtain ⟨b₁, h₁, -⟩ := conducts_functionSet hx dl n f
    have p₁ := conducts_thenPause h₁ (initWait_le_longestWait s.par 1)
    obtain ⟨b₂, h₂, -⟩ := conducts_functionSet p₁.course dl n f
    have p₂ := conducts_thenPause h₂ (initWait_le_longestWait s.par 2)
    obtain ⟨b₃, h₃, he⟩ := conducts_functionSet p₂.course dl n f
    exact ⟨b₃, (p₁.trans (p₂.trans h₃)).mono (by decide), he⟩

/-- A single nibble and then a wait of a number of ticks (R140). -/
theorem conducts_nibblePause {s : State} {x : Course} {n : BitVec 4} {i : Instr} (hx : x.At s) (hd : decodeNibble n = .ok i)
    (hexec : ∀ u, exec i u = .next (push (nibbleCycle u.par u.cfg.dl n) u)) {m : Word} (hm : m.toNat ≤ longestWait s.par) :
    ∃ b, Conducts 23 s x ([.transfer (.nib n)] ++ waitTicks m) b (x.more (nibbleItems x.par x.dl n ++ [.wait m])) := by
  obtain ⟨b, h, -⟩ := conducts_nibble hx hd hexec
  rw [← Course.more_more]
  exact ⟨b, conducts_thenPause h hm⟩

/-- What the NIB3 cycle number `k` of a 4-bit bus shows, with its wait (R140). -/
def nib3Cycle (par : Params) (dl : Bool) (k : Nat) : List Item := nibbleItems par dl 3 ++ [.wait (initWait par k)]

/-- What all the NIB3 cycles show: one, or three (R140). -/
def nib3Items (par : Params) (dl : Bool) : List Item :=
  if par.initRepeat = 1 then nib3Cycle par dl 1 else nib3Cycle par dl 1 ++ nib3Cycle par dl 2 ++ nib3Cycle par dl 3

theorem Course.initSets4_eq (fs : Byte) (x : Course) :
    x.initSets4 fs =
      ((x.more (nib3Items x.par x.dl)).more (nibbleItems x.par x.dl 2 ++ [.wait x.par.initWait2])).send false fs := by
  unfold Course.initSets4 nib3Items
  split
  · simp [Course.more_more, nib3Cycle, initWait]
  · simp [Course.more_more, nib3Cycle, initWait]

theorem conducts_nib3 {s : State} {x : Course} (hx : x.At s) (k : Nat) :
    ∃ b, Conducts 23 s x ([.transfer (.nib 3)] ++ waitTicks (initWait s.par k)) b (x.more (nib3Cycle s.par x.dl k)) := by
  rw [nib3Cycle, ← hx.par]
  exact conducts_nibblePause hx (i := .busNib3) rfl (fun _ => rfl) (by rw [hx.par]; exact initWait_le_longestWait s.par k)

theorem conducts_initSets4 {s : State} {x : Course} (hx : x.At s) (hlegal : s.par.legal = true) :
    ∃ b, Conducts 69 s x (initSets4 s.par s.par.initRepeat 1) b (x.more (nib3Items s.par x.dl)) := by
  obtain ⟨b₁, h₁⟩ := conducts_nib3 hx 1
  unfold nib3Items
  rcases Params.initRepeat_of_legal hlegal with hone | hthree
  · rw [hone, if_pos rfl]
    exact ⟨b₁, h₁.mono (by decide)⟩
  · obtain ⟨b₂, h₂⟩ := conducts_nib3 h₁.course 2
    obtain ⟨b₃, h₃⟩ := conducts_nib3 h₂.course 3
    rw [hthree, if_neg (by decide), ← Course.more_more, ← Course.more_more]
    exact ⟨b₃, h₁.trans (h₂.trans h₃)⟩

/-- LCD.INIT's function sets on a bus of either width (R140). -/
def Course.functionSets (dl : Bool) (fs : Byte) (x : Course) : Course := if dl then x.initSets8 fs else x.initSets4 fs

theorem Course.functionSets_left (dl : Bool) (fs : Byte) (x : Course) : (x.functionSets dl fs).left = x.left := by
  unfold Course.functionSets
  cases dl with
  | true => exact Course.initSets8_left fs x
  | false => rfl

/-- The function sets of either bus width are LCD.INIT's jobs up to the wait after the last of them (R140). -/
theorem conducts_functionSets {s : State} {x : Course} (hx : x.At s) (hlegal : s.par.legal = true) (dl n f : Bool) :
    ∃ js b, initFunctionSet s.par dl (functionSetByte dl n f) = js ++ [.waitReady false] ∧
      Conducts 114 s x js b (x.functionSets dl (functionSetByte dl n f)) ∧ b.lcd.e = false := by
  cases dl with
  | true =>
    obtain ⟨b, hsets, he⟩ := conducts_initSets8 hx hlegal true n f
    exact ⟨_, b, rfl, hsets.mono (by decide), he⟩
  | false =>
    change ∃ js b, _ ∧ Conducts 114 s x js b (x.initSets4 _) ∧ _
    rw [Course.initSets4_eq, hx.par]
    obtain ⟨b₁, h₁⟩ := conducts_initSets4 hx hlegal
    obtain ⟨b₂, h₂⟩ := conducts_nibblePause h₁.course (n := 2) (i := .busNib2) rfl (fun _ => rfl)
      (initWait_le_longestWait s.par 2)
    rw [show (x.more (nib3Items s.par x.dl)).par = s.par from hx.par] at h₂
    obtain ⟨b₃, h₃, he⟩ := conducts_functionSet h₂.course false n f
    refine ⟨_, b₃, ?_, (h₁.trans (h₂.trans h₃)).mono (by decide), he⟩
    simp [initFunctionSet, initWait]

/-! ### The whole operation -/

/-- LCD.INIT's end: the settings off, INIT_DONE = 1, and the epilogue (R140). -/
theorem finishes_initEnd {s : State} {x : Course} (hx : x.At s) :
    Finishes 1 s x [.initEnd] 0 { s with set := ⟨false, false, false⟩, cfg.initDone := true } x := by
  refine ⟨⟨[], (List.append_nil _).symm, ?_⟩, ⟨hx.par, hx.dl, hx.ac, hx.left, hx.late⟩, id⟩
  intro hi hb ph c ticks log hlen hk
  obtain ⟨k, ticks, rfl⟩ := List.exists_cons_of_length_pos (show 0 < ticks.length by omega)
  have hstep := step_job (s := s.atPlace [.initEnd] ph c (k :: ticks) log) hi hb rfl rfl (by simp) rfl
  exact ⟨1, ph.next, later s.par c k, ticks, [], by rw [runs_succ hstep, runs_zero, List.append_nil]; rfl, rfl⟩

/-- Settles O49: the delay, the function sets (`conducts_functionSets`), the three commands, each with its wait
(`conducts_thenWait`), and the end. -/
theorem initCompletes : Obligations.InitCompletes := by
  intro s cols f n dl hconfig hlegal hpaced hanswered
  have hexec : exec (.lcdInit cols f n dl) s = .next (lcdJobs (initJobs s.par dl (functionSetByte dl n f))
      { clearToflag s with cfg := ⟨dl, n, f, cols, false⟩ }) := if_pos hconfig
  refine ⟨_, hexec, rfl, rfl, ?_⟩
  have hstart : (Course.start dl s).At (lcdJobs (initJobs s.par dl (functionSetByte dl n f))
      { clearToflag s with cfg := ⟨dl, n, f, cols, false⟩ }) := ⟨rfl, rfl, rfl, rfl, rfl⟩
  have hdelay := conducts_delayMs hstart s.par.powerOnMs
  obtain ⟨js, b₀, hjs, hsets, he₀⟩ := conducts_functionSets hdelay.course hlegal dl n f
  obtain ⟨b₁, hready, he₁, hleft₁⟩ := conducts_thenWait false (k := 3) hsets he₀ (by rwa [Course.functionSets_left])
  obtain ⟨c₂, hoff, ce₂⟩ := conducts_send hready.course (byte := 0x08) (i := .busDisplayControl false false false) rfl
    fun _ => rfl
  obtain ⟨b₂, hoff, he₂, hleft₂⟩ := conducts_thenWait false (k := 2) hoff ce₂ hleft₁
  obtain ⟨c₃, hclear, ce₃⟩ := conducts_write hoff.course (w := .cmdw 0x01) (i := .busClearDisplay) rfl (fun _ => rfl)
    (.inl rfl)
  obtain ⟨b₃, hclear, he₃, hleft₃⟩ := conducts_thenWait true (k := 1) hclear ce₃ hleft₂
  obtain ⟨c₄, hentry, ce₄⟩ := conducts_send hclear.course (byte := 0x06) (i := .busEntryModeSet true false) rfl
    fun _ => rfl
  obtain ⟨b₄, hentry, he₄, -⟩ := conducts_thenWait false (k := 0) hentry ce₄ hleft₃
  have hall := ((((hdelay.trans hready).trans hoff).trans hclear).trans hentry).finishes (finishes_initEnd hentry.course)
  rw [← hjs] at hall
  have hjobs : 1 + (114 + (25 * (s.par.maxPolls + 1) + 1)) + (22 + (25 * (s.par.maxPolls + 1) + 1)) +
      (22 + (25 * (s.par.maxPolls + 1) + 1)) + (22 + (25 * (s.par.maxPolls + 1) + 1)) + 1 ≤ 300 * (s.par.maxPolls + 2) := by
    omega
  exact (hall.mono hjobs).endsAs (s := { s with cfg := ⟨dl, n, f, cols, false⟩ }) hpaced rfl rfl
    ⟨rfl, rfl, rfl, rfl, rfl, rfl, rfl, rfl, rfl, rfl, rfl⟩ fun _ => he₄

end Sys2Proof.Machine
end

section
/-! The low durations (spec/41_sensor.md R98, R107): whatever LOW holds, a step does the same, and leaves a state that differs
at most in LOW. -/

namespace Sys2Proof.Machine

/-! ### States and answers that differ in LOW -/

/-- The state with other low durations. -/
def State.withLow (s : State) (low : List Word) : State := { s with work.low := low }

/-- The second state is the first but for LOW. -/
def SameButLow (s t : State) : Prop := ∃ low, t = s.withLow low

theorem SameButLow.refl (s : State) : SameButLow s s := ⟨s.work.low, rfl⟩

theorem SameButLow.ite {c : Prop} [Decidable c] {a b a' b' : State} (h : SameButLow a a') (h' : SameButLow b b') :
    SameButLow (if c then a else b) (if c then a' else b') := by
  split
  · exact h
  · exact h'

/-- Two answers stop alike, or give states that differ at most in LOW. -/
inductive Alike : Answer → Answer → Prop where
  | next {s t : State} (h : SameButLow s t) : Alike (.next s) (.next t)
  | fault (r : Fault) : Alike (.fault r) (.fault r)
  | refused (r : Refusal) : Alike (.refused r) (.refused r)

theorem Alike.ite {c : Prop} [Decidable c] {a b a' b' : Answer} (h : Alike a a') (h' : Alike b b') :
    Alike (if c then a else b) (if c then a' else b') := by
  split
  · exact h
  · exact h'

/-! ### What a step fetches of the controller's jobs -/

theorem fetchJob_idle {s : State} (hb : s.port.opbusy = false) : fetchJob s = .took (.next s) := by simp [fetchJob, hb]

theorem fetchJob_nil {s : State} (hb : s.port.opbusy = true) (ht : s.todo = []) : fetchJob s = .took (.next (release s)) := by
  simp [fetchJob, hb, ht]

theorem fetchJob_neverSent {s : State} {w : BusWord} {js : List Job} {r : Reject} (hb : s.port.opbusy = true)
    (ht : s.todo = .transfer w :: js) (hw : decodeBus w = .error r) : fetchJob s = .took (.refused (.neverSent w)) := by
  simp [fetchJob, hb, ht, hw]

/-! ### The draws -/

section

variable (s : State) (low : List Word)

theorem advanceTimer_withLow : advanceTimer (s.withLow low) = (advanceTimer s).withLow low := by
  simp only [advanceTimer, drawTicks, State.withLow]
  cases s.env.ticks with
  | nil | cons => rfl

theorem drawPins_withLow : drawPins (s.withLow low) = ((drawPins s).1, (drawPins s).2.withLow low) := by
  simp only [drawPins, State.withLow]
  cases s.env.pins with
  | nil | cons => rfl

theorem drawLevel_withLow : drawLevel (s.withLow low) = ((drawLevel s).1, (drawLevel s).2.withLow low) := by
  simp only [drawLevel, State.withLow]
  cases s.env.line with
  | nil | cons => rfl

theorem snsRead_withLow : snsRead (s.withLow low) = ((snsRead s).1, (snsRead s).2.withLow low) := by
  unfold snsRead
  rw [drawLevel_withLow]
  change (if s.sns.mode = .outOd ∧ s.sns.drv = false then _ else _) = _
  split
  · rfl
  · rfl

/-! ### The jobs -/

theorem sameButLow_runAwaitLevel (level : Bool) (limit : Word) :
    SameButLow (runAwaitLevel level limit s) (runAwaitLevel level limit (s.withLow low)) := by
  unfold runAwaitLevel
  rw [snsRead_withLow]
  exact .ite ⟨low, rfl⟩ ⟨low, rfl⟩

theorem sameButLow_runPulse (level : Bool) (limit : Option Word) (dst : PulseTo) :
    SameButLow (runPulse level limit dst s) (runPulse level limit dst (s.withLow low)) := by
  unfold runPulse
  rw [snsRead_withLow]
  cases limit with
  | none | some => exact .ite ⟨low, rfl⟩ ⟨low, rfl⟩

/-- A low duration goes into LOW, and no other does. -/
theorem sameButLow_storePulse (dst : PulseTo) (d : Word) :
    SameButLow (storePulse dst d s) (storePulse dst d (s.withLow low)) := by
  cases dst with
  | discard | high => exact ⟨low, rfl⟩
  | low => exact ⟨storeAt low s.work.i d, rfl⟩

theorem sameButLow_runSample (lane : Lane) : SameButLow (runSample lane s) (runSample lane (s.withLow low)) := by
  unfold runSample
  rw [drawPins_withLow]
  exact ⟨low, rfl⟩

theorem sameButLow_runRaise (st : Status) : SameButLow (runRaise st s) (runRaise st (s.withLow low)) := by
  cases st with
  | sensorBusy | ackTimeout => exact ⟨(forgetSensor s).work.low, rfl⟩
  | _ => exact ⟨low, rfl⟩

theorem sameButLow_runValidate : SameButLow (runValidate s) (runValidate (s.withLow low)) :=
  .ite ⟨(forgetSensor s).work.low, rfl⟩ ⟨(forgetSensor s).work.low, rfl⟩

/-- No job reads LOW. -/
theorem sameButLow_runJob (j : Job) : SameButLow (runJob j s) (runJob j (s.withLow low)) := by
  cases j with
  | spin | timerWait | awaitCheck | pulseCheck | bits | waitReady | writeNext | readNext =>
    exact .ite ⟨low, rfl⟩ ⟨low, rfl⟩
  | pollTest => exact .ite (.ite ⟨low, rfl⟩ ⟨low, rfl⟩) ⟨low, rfl⟩
  | awaitLevel level limit => exact sameButLow_runAwaitLevel s low level limit
  | pulse level limit dst => exact sameButLow_runPulse s low level limit dst
  | pulseEnd limit dst => exact .ite ⟨low, rfl⟩ (sameButLow_storePulse (cntRead s).2 low dst _)
  | sample lane => exact sameButLow_runSample s low lane
  | validate => exact sameButLow_runValidate s low
  | raise st => exact sameButLow_runRaise s low st
  | _ => exact ⟨low, rfl⟩

/-! ### The instructions -/

theorem alike_lcdPrologue {body : State → State} (h : SameButLow (body (clearToflag s)) (body (clearToflag (s.withLow low)))) :
    Alike (lcdPrologue body s) (lcdPrologue body (s.withLow low)) := .ite (.next h) (.next ⟨low, rfl⟩)

theorem sameButLow_needsRw {body : State → State} (h : SameButLow (body s) (body (s.withLow low))) :
    SameButLow (needsRw body s) (needsRw body (s.withLow low)) := .ite h ⟨low, rfl⟩

/-- No instruction reads LOW. -/
theorem alike_exec (i : Instr) : Alike (exec i s) (exec i (s.withLow low)) := by
  cases i with
  | lcdInit => exact .ite (.next ⟨low, rfl⟩) (.next ⟨low, rfl⟩)
  | lcdSetAddress => exact .ite (.next ⟨low, rfl⟩) (alike_lcdPrologue s low ⟨low, rfl⟩)
  | lcdSetCursor row col =>
    change Alike (execLcdSetCursor row col s) (execLcdSetCursor row col (s.withLow low))
    refine alike_lcdPrologue s low ?_
    exact .ite ⟨low, rfl⟩ ⟨low, rfl⟩
  | lcdSetDisplay | lcdClear | lcdHome | lcdWrite | lcdWriteRow | lcdGetSettings => exact alike_lcdPrologue s low ⟨low, rfl⟩
  | lcdRead | lcdReadRow | lcdIsBusy =>
    refine alike_lcdPrologue s low (sameButLow_needsRw (clearToflag s) low ?_)
    exact ⟨low, rfl⟩
  | busBusyRead | busDataRead => exact .ite (.next ⟨low, rfl⟩) (.next ⟨low, rfl⟩)
  | _ => exact .next ⟨low, rfl⟩

/-! ### The step -/

theorem outsideBuffer_withLow (j : Job) : outsideBuffer (s.withLow low) j = outsideBuffer s j := by
  cases j with
  | _ => rfl

theorem alike_jobStep (j : Job) (js : List Job) : Alike (jobStep j js s) (jobStep j js (s.withLow low)) := by
  unfold jobStep
  rw [outsideBuffer_withLow]
  exact .ite (.fault _) (.next (sameButLow_runJob (takeJob js s) low j))

/-- What a step fetches is answered alike: the controller's next job or transfer, -/
theorem alike_fetchJob : Alike (fetchJob s).answer (fetchJob (s.withLow low)).answer := by
  cases hb : s.port.opbusy with
  | false =>
    rw [fetchJob_idle hb, fetchJob_idle (s := s.withLow low) hb]
    exact .next ⟨low, rfl⟩
  | true =>
    cases ht : s.todo with
    | nil =>
      rw [fetchJob_nil hb ht, fetchJob_nil (s := s.withLow low) hb ht]
      exact .next ⟨low, rfl⟩
    | cons j js =>
      by_cases hj : ∃ w, j = .transfer w
      · obtain ⟨w, rfl⟩ := hj
        cases hw : decodeBus w with
        | ok i =>
          rw [fetchJob_transfer hb ht hw, fetchJob_transfer (s := s.withLow low) hb ht hw]
          exact alike_exec (takeJob js s) low i
        | error r =>
          rw [fetchJob_neverSent hb ht hw, fetchJob_neverSent (s := s.withLow low) hb ht hw]
          exact .refused _
      · have hj' : ∀ w, j ≠ .transfer w := fun w e => hj ⟨w, e⟩
        rw [fetchJob_cons hb ht hj', fetchJob_cons (s := s.withLow low) hb ht hj']
        exact alike_jobStep s low j js

/-- the host's command, -/
theorem alike_fetchCmd (w : Word) : Alike (fetchCmd w s).answer (fetchCmd w (s.withLow low)).answer := by
  unfold fetchCmd
  cases decodeCmd w with
  | ok i => exact alike_exec (accept w s) low i
  | error r => exact .next ⟨low, rfl⟩

/-- its write of a byte of WBUF, -/
theorem alike_fetchWbuf (i : Nat) (v : Byte) : Alike (fetchWbuf i v s).answer (fetchWbuf i v (s.withLow low)).answer := by
  unfold fetchWbuf
  change Alike _ (if i < s.par.bufSize then _ else _ : Fetched).answer
  split
  · exact .next ⟨low, rfl⟩
  · exact .fault _

/-- and any write of the call port. -/
theorem alike_hostWrite {f f' : Fetched} (h : Alike f.answer f'.answer) :
    Alike (hostWrite s f).answer (hostWrite (s.withLow low) f').answer := by
  unfold hostWrite
  change Alike _ (if s.port.opbusy = true then _ else f' : Fetched).answer
  split
  · exact .fault _
  · exact h

theorem alike_fetchInput : Alike (fetchInput s).answer (fetchInput (s.withLow low)).answer := by
  have hinputs : (s.withLow low).inputs = s.inputs := rfl
  unfold fetchInput
  rw [hinputs]
  cases s.inputs with
  | nil => exact alike_fetchJob s low
  | cons x rest =>
    cases x with
    | run => exact alike_fetchJob { s with inputs := rest } low
    | writeCmd w => exact alike_hostWrite s low (alike_fetchCmd { s with inputs := rest } low w)
    | writeArg v => exact alike_hostWrite s low (.next ⟨low, rfl⟩)
    | writeWbuf i v => exact alike_hostWrite s low (alike_fetchWbuf { s with inputs := rest } low i v)
    | rst => exact .next (.refl _)

theorem alike_step : Alike (step s) (step (s.withLow low)) := by
  rw [step_eq_answer, step_eq_answer, fetch, fetch, advanceTimer_withLow]
  exact alike_fetchInput (advanceTimer s) low

end

/-! ### Runs -/

theorem runs_succ_fault {s : State} {r : Fault} (h : step s = .fault r) (k : Nat) : runs (k + 1) s = .fault r := by
  have h' : Sys2Proof.core.step s = .fault r := h
  simp only [runs, Host.Core.run, h']
  rfl

theorem runs_succ_refused {s : State} {r : Refusal} (h : step s = .refused r) (k : Nat) : runs (k + 1) s = .refused r := by
  have h' : Sys2Proof.core.step s = .refused r := h
  simp only [runs, Host.Core.run, h']
  rfl

/-- Runs of any length, by induction on their steps. -/
theorem alike_runs (n : Nat) {s t : State} (h : SameButLow s t) : Alike (runs n s) (runs n t) := by
  induction n generalizing s t with
  | zero => exact .next h
  | succ n ih =>
    obtain ⟨low, rfl⟩ := h
    have hstep := alike_step s low
    generalize hs : step s = o, ht : step (s.withLow low) = o' at hstep
    cases hstep with
    | next h =>
      rw [runs_succ hs, runs_succ ht]
      exact ih h
    | fault r =>
      rw [runs_succ_fault hs, runs_succ_fault ht]
      exact .fault r
    | refused r =>
      rw [runs_succ_refused hs, runs_succ_refused ht]
      exact .refused r

/-- Settles O36, by `alike_runs`. -/
theorem lowDurationsNeverMatter : Obligations.LowDurationsNeverMatter := by
  intro n s low
  have halike : Alike (runs n s) (runs n { s with work.low := low }) := alike_runs n ⟨low, rfl⟩
  generalize runs n s = o, runs n { s with work.low := low } = o' at halike ⊢
  cases halike with
  | next h =>
    obtain ⟨low', rfl⟩ := h
    rfl
  | fault | refused => rfl

end Sys2Proof.Machine
end

section
/-! SNS.READ to its end (spec/41_sensor.md R97 to R110): a line stuck at the measured level, the idle check that fails or passes,
and the frame decoded from the high durations. -/

namespace Sys2Proof.Machine

/-! ### A line stuck at the measured level -/

/-- Settles O35, by induction on the number of samples, each of which leaves the loop where it is (`step_pulse`). -/
theorem stuckLineNeverEnds : Obligations.StuckLineNeverEnds := by
  intro n
  induction n with
  | zero =>
    intro s level dst js rest _ _ _ _ _
    exact ⟨s, runs_zero s, rfl, rfl, rfl, by simp⟩
  | succ n ih =>
    intro s level dst js rest hb hi hpin ht hl
    have hstep := step_pulse hi hb (by rw [hpin]; rfl) ht hl
    rw [afterSample_same_none] at hstep
    obtain ⟨u, hrun, hport, htodo, hsns, hlog⟩ := ih (push [.pulse level none dst] (emit (.snsSample level)
      { takeJob js (advanceTimer s) with env.line := List.replicate n level ++ rest })) level dst js rest
      (by simpa using hb) (by simpa using hi) (by simpa using hpin) rfl rfl
    refine ⟨u, (runs_succ hstep n).trans hrun, by simpa using hport, htodo.trans ht.symm, by simpa using hsns, ?_⟩
    simpa [List.replicate_succ] using hlog

/-! ### The end of the idle check -/

theorem length_heldDraws_checked (held : List (Nat × Nat)) : (heldDraws true held).length = 2 * held.length := by
  simp [heldDraws, Nat.mul_comm]

/-- The idle check's timeout is SensorBusy, raised after the deciding read (R90, R99, R162). -/
theorem runAwaitCheck_past {s : State} {level : Bool} {limit : Word}
    (h : limit.toNat < (elapsed s.par s.cnt s.work.t0).toNat) :
    runAwaitCheck level limit s = abort .sensorBusy (emit (.tread s.cnt) s) := if_pos (decide_eq_true h)

section

variable {s : State} {js : List Job} {c : Word} {k : Nat} {pin : SnsPin} {w : Work}

theorem leads_awaitCheck_past {level : Bool} {limit c' : Word} (hc : later s.par c k = c')
    (h : limit.toNat < (elapsed s.par c' w.t0).toNat) :
    Leads s ⟨.awaitCheck level limit :: js, c, pin, w⟩ [k] [] [.tread c'] ⟨[.raise .sensorBusy], c', pin, w⟩ := by
  subst hc
  exact leads_job (fun x => by simp) (fun _ => rfl) fun ph _ _ _ => ⟨ph, runAwaitCheck_past h⟩

/-- The idle check whose last check finds more than IDLE_TIMEOUT: the raise comes next (R90, R99, R162). -/
theorem leads_idleCheck_past (c : Word) (config snap x y : Nat) (low : List (Nat × Nat))
    (hlow : heldTicks low ≤ s.par.idleTimeout.toNat) (hpast : s.par.idleTimeout.toNat < heldTicks low + x + y)
    (hspan : heldTicks low + x + y < cntSpan s.par) :
    Leads s ⟨idleCheckJobs s.par ++ js, c, pin, w⟩ ([config, snap] ++ heldDraws true (low ++ [(x, y)]))
      (List.replicate (low.length + 1) false)
      ([.snsCfg .inPu, .tread (later s.par c (config + snap))] ++
        heldLog s.par true false (later s.par c (config + snap)) (low ++ [(x, y)]))
      ⟨[.raise .sensorBusy], later s.par c (config + snap + (heldTicks low + x + y)), { pin with mode := .inPu },
        { w with t0 := later s.par c (config + snap) }⟩ := by
  have hheld := leads_idleCheck_held (s := s) (js := js) (pin := pin) (w := w) c config snap low hlow
  have hsample := hheld.trans (leads_awaitLevel_other (k := x) (level := true) (limit := s.par.idleTimeout) rfl)
  have hcount : later s.par (later s.par (later s.par c (config + snap + heldTicks low)) x) y =
      later s.par c (config + snap + (heldTicks low + x + y)) := by
    simp only [later_later, Nat.add_assoc]
  have hcheck := hsample.trans (leads_awaitCheck_past (level := true) (limit := s.par.idleTimeout) hcount (by
    rwa [elapsed_later hspan, toNat_ofNat_of_lt_cntSpan hspan]))
  have hread : later s.par (later s.par (later s.par c (config + snap)) (heldTicks low)) (x + y) =
      later s.par c (config + snap + (heldTicks low + x + y)) := by
    simp only [later_later, Nat.add_assoc]
  rw [heldLog_append _ _ _ (later_toNat_lt ..)]
  simpa [heldDraws, heldLog, hread, ← List.replicate_append_replicate] using hcheck

end

/-- Settles O32: the failed check by `leads_idleCheck_past` and the raise, the high sample by `leads_idleCheck`. -/
theorem sensorBusyOnLowLine : Obligations.SensorBusyOnLowLine := by
  intro s a b x y ds rest rest' c hi hb hticks hlow hc
  subst hc
  let js := requestJobs s.par ++ ackJobs s.par ++ receiveJobs
  have hjobs : idleCheckJobs s.par ++ js = snsReadJobs s.par := by simp only [js, snsReadJobs, List.append_assoc]
  refine ⟨_, exec_snsRead s, ?busy, ?idle⟩
  case busy =>
    intro hline hpast hspan
    have hleads := leads_idleCheck_past (js := js) (pin := s.sns) (w := { s.work with i := 0 }) s.cnt a b x y ds hlow hpast
      hspan
    obtain ⟨u, hrun, hraised, hsns, hk, hlog⟩ := hleads.raises (ticks := rest) (fun _ => rfl) rfl rfl rfl hi hb
      (by simpa [heldDraws] using hticks) hline .snsIdleCheck
    have hsteps : ([a, b] ++ heldDraws true (ds ++ [(x, y)])).length + 1 = 2 * ds.length + 5 := by
      simp only [List.length_append, length_heldDraws_checked, List.length_cons, List.length_nil]
      omega
    rw [hjobs, hsteps] at hrun
    exact ⟨u, hrun, hraised, hsns, hk, by simpa using hlog⟩
  case idle =>
    intro hline
    have hleads := leads_idleCheck (js := js) (pin := s.sns) (w := { s.work with i := 0 }) s.cnt a b x ds hlow
    obtain ⟨ph, hrun⟩ := hleads.run (ticks := y :: rest) (lines := rest') hi hb (by simpa using hticks) (by simpa using hline)
      .snsIdleCheck
    have hsteps : ([a, b] ++ heldDraws true ds ++ [x]).length = 2 * ds.length + 3 := by
      simp only [List.length_append, length_heldDraws_checked, List.length_cons, List.length_nil]
      omega
    rw [hjobs, hsteps] at hrun
    exact ⟨_, hrun, rfl, by simp [State.atSpot], rfl, rfl, sensorKeeps_atSpot (s := s) rfl rfl ..⟩

/-! ### The frame's durations -/

/-- A buffer that starts with known entries starts with one more when the next entry is set (R106). -/
theorem storeAt_next_startsWith {known buf : List Word} (h : known <+: buf) (d : Word) :
    known ++ [d] <+: storeAt buf known.length d := by
  obtain ⟨more, rfl⟩ := h
  exact ⟨(known ++ more).drop (known.length + 1), by simp [storeAt]⟩

/-- A bit's high pulse is kept in HIGH[I], and the bit is counted (R106). -/
theorem Work.pulse_of_highPulse (w : Work) (par : Params) {j : Nat} (hj : j % 2 = 1 ∧ 2 ≤ j) (c : Word) (p : Pulse) :
    (w.pulse par j c p).high = storeAt w.high w.i (BitVec.ofNat 32 p.span) ∧ (w.pulse par j c p).i = w.i + 1 := by
  simp [Work.pulse, Work.countBit, pulseTo, Nat.not_lt.mpr hj.2, hj, Work.keep]

/-- No other pulse changes HIGH or I (R101, R102, R106). -/
theorem Work.pulse_of_otherPulse (w : Work) (par : Params) {j : Nat} (hj : ¬(j % 2 = 1 ∧ 2 ≤ j)) (c : Word) (p : Pulse) :
    (w.pulse par j c p).high = w.high ∧ (w.pulse par j c p).i = w.i := by
  have hto : pulseTo j ≠ .high := by
    unfold pulseTo
    split
    · simp
    · rw [if_pos (by omega)]
      simp
  rw [Work.pulse, Work.countBit, if_neg (by simpa using hj)]
  cases h : pulseTo j with
  | discard | low => exact ⟨rfl, rfl⟩
  | high => exact absurd h hto

/-- After pulses of bits, from the low pulse number `j` on, HIGH begins with what it began with before the bit in I and then the
high durations (R106). -/
theorem Work.pulses_high (par : Params) (ps : List Pulse) {j : Nat} (hj : 2 ≤ j) (heven : j % 2 = 0) (c : Word) {w : Work}
    {known : List Word} (hi : w.i = known.length) (h : known <+: w.high) :
    known ++ highSpans ps <+: (Work.pulses par j c ps w).high := by
  induction ps using List.twoStepInduction generalizing j c w known with
  | nil => simpa [highSpans, Work.pulses] using h
  | singleton p =>
    have hhigh : (w.pulse par j c p).high = w.high := (w.pulse_of_otherPulse par (by omega) c p).1
    simpa [highSpans, Work.pulses, hhigh] using h
  | cons_cons p q ps ih =>
    let w₁ := w.pulse par j c p
    let c₁ := later par c (p.snap + p.span)
    obtain ⟨hhigh₁, hi₁⟩ : w₁.high = w.high ∧ w₁.i = w.i := w.pulse_of_otherPulse par (by omega) c p
    obtain ⟨hhigh₂, hi₂⟩ := w₁.pulse_of_highPulse par (j := j + 1) (by omega) c₁ q
    rw [hi₁, hi] at hi₂ hhigh₂
    rw [hhigh₁] at hhigh₂
    have hrest := ih (j := j + 2) (by omega) (by omega) (later par c₁ (q.snap + q.span))
      (known := known ++ [BitVec.ofNat 32 q.span]) (by rw [hi₂, List.length_append, List.length_singleton])
      (hhigh₂ ▸ storeAt_next_startsWith h _)
    rwa [List.append_assoc, List.singleton_append] at hrest

theorem length_highSpans (ps : List Pulse) : (highSpans ps).length = ps.length / 2 := by
  induction ps using List.twoStepInduction with
  | nil | singleton => simp [highSpans]
  | cons_cons p q ps ih =>
    simp only [highSpans, List.length_cons, ih]
    omega

/-- HIGH begins with the durations of a reading's bits, whatever it held before (R106). -/
theorem Reading.high_startsWith_highs (par : Params) (c : Word) {w : Work} (hi : w.i = 0) (r : Reading) :
    r.highs <+: (r.work par c w).high := by
  unfold Reading.work Reading.highs
  match r.pulses with
  | [] => exact ⟨_, rfl⟩
  | [_] => exact ⟨_, rfl⟩
  | p :: q :: ps =>
    obtain ⟨-, hi₀⟩ := Work.pulse_of_otherPulse { w with t0 := r.start par c } par (j := 0) (by decide)
      (BitVec.ofNat 32 r.released) p
    obtain ⟨-, hi₁⟩ := Work.pulse_of_otherPulse _ par (j := 1) (by decide)
      (later par (BitVec.ofNat 32 r.released) (p.snap + p.span)) q
    exact Work.pulses_high par ps (j := 2) (by decide) rfl _ (known := []) (hi₁.trans (hi₀.trans hi)) ⟨_, rfl⟩

/-- The frame's bytes are made of the first `bits` durations alone (R108). -/
theorem decodeFrame_of_startsWith {known high : List Word} (h : known <+: high) (threshold : Word) {bits : Nat}
    (hbits : bits ≤ known.length) : decodeFrame threshold bits high = decodeFrame threshold bits known := by
  obtain ⟨more, rfl⟩ := h
  refine List.map_congr_left fun k hk => List.foldl_ext _ _ _ fun b j hj => ?_
  rw [List.mem_range] at hk hj
  rw [List.getD_append _ _ _ _ (by omega)]

/-! ### Assembly, validation and output -/

section

variable {s : State} {js : List Job} {c : Word} {k : Nat} {pin : SnsPin} {w : Work}

/-- The head of bit reception's loop after the frame's last bit (R106). -/
theorem leads_bits_done (h : s.par.frameBits ≤ w.i) :
    Leads s ⟨.bits :: js, c, pin, w⟩ [k] [] [] ⟨js, later s.par c k, pin, w⟩ :=
  leads_silent (fun x => by simp) (fun _ => rfl) fun ph _ _ _ => ⟨ph, if_neg (Nat.not_lt.mpr h)⟩

theorem leads_assemble (s : State) (js : List Job) (c : Word) (k : Nat) (pin : SnsPin) (w : Work) :
    Leads s ⟨.assemble :: js, c, pin, w⟩ [k] [] []
      ⟨js, later s.par c k, pin, { w with fb := decodeFrame s.par.bitThreshold s.par.frameBits w.high }⟩ :=
  leads_silent (fun x => by simp) (fun _ => rfl) fun ph _ _ _ => ⟨ph, rfl⟩

/-- After the frame's last bit: its assembly, and the validation is ahead (R98, R108). -/
theorem leads_receive_done (c : Word) (k₀ k₁ k₂ : Nat) (h : s.par.frameBits ≤ w.i) :
    Leads s ⟨receiveJobs, c, pin, w⟩ [k₀, k₁, k₂] [] []
      ⟨[.validate], later s.par c (k₀ + k₁ + k₂), pin,
        { w with fb := decodeFrame s.par.bitThreshold s.par.frameBits w.high }⟩ := by
  have hall := (leads_bits_done (js := [.assemble, .enter .snsDecode, .validate]) (c := c) (k := k₀) (pin := pin) h).trans
    ((leads_assemble s [.enter .snsDecode, .validate] _ k₁ pin w).trans (leads_enter s .snsDecode [.validate] _ k₂ pin _))
  rwa [later_later, later_later, ← Nat.add_assoc] at hall

end

theorem endedWith_conclude {s t : State} (hr : t.obs.results = s.obs.results) (st : Status) (v : Word) :
    EndedWith st v s (conclude st v t) := by simp [EndedWith, hr, Port.result]

/-- How SNS.READ ends with the frame `fb` (R109, R110). -/
def EndsWithFrame (fb : List Byte) (s t : State) : Prop :=
  if checksum fb = frameAt fb 4 then EndedWith .ok (frameVal fb) s t
  else EndedWith .checksumMismatch (mismatchVal (checksum fb) (frameAt fb 4)) s t

/-- The validation ends SNS.READ as the frame has it, and appends no event (R109, R110). -/
theorem runValidate_spec {s t : State} (hr : t.obs.results = s.obs.results) (hk : SensorKeeps s t) :
    EndsWithFrame t.work.fb s (runValidate t) ∧ (runValidate t).obs.log = t.obs.log ∧ (runValidate t).sns = t.sns ∧
      SensorKeeps s (runValidate t) := by
  unfold EndsWithFrame runValidate raiseWith
  split <;> exact ⟨endedWith_conclude (by simpa using hr) .., rfl, rfl, hk⟩

/-- A scripted run that comes to the validation ends with it in the next step (R109, R110). -/
theorem Leads.validates {s : State} {p q : Spot} {draws ticks : List Nat} {line lines : List Bool} {evs : List Event} {k : Nat}
    {js : List Job} (h : Leads s p draws line evs q) (htodo : q.todo = .validate :: js)
    (hpolls : q.work.polls = s.work.polls) (hn : q.work.nXfer = s.work.nXfer) (hi : s.inputs = [])
    (hb : s.port.opbusy = true) (ht : s.env.ticks = draws ++ k :: ticks) (hl : s.env.line = line ++ lines) (ph : Phase) :
    ∃ u, runs (draws.length + 1) (s.atSpot p ph s.obs.log s.env.ticks s.env.line) = .next u ∧
      EndsWithFrame q.work.fb s u ∧ u.sns = q.sns ∧ SensorKeeps s u ∧ u.obs.log = s.obs.log ++ evs := by
  obtain ⟨ph', hrun⟩ := h.run hi hb ht hl ph
  let t := s.atSpot q ph' (s.obs.log ++ evs) (k :: ticks) lines
  have hstep : step t = .next (runValidate (ready k ticks js t)) :=
    step_job (s := t) hi hb htodo rfl (fun x => by simp) rfl
  obtain ⟨hend, hlog, hsns, hk⟩ := runValidate_spec (s := s) (t := ready k ticks js t) rfl
    (sensorKeeps_atSpot hpolls hn ph' (s.obs.log ++ evs) (k :: ticks) lines)
  exact ⟨_, (runs_add hrun 1).trans (runs_succ hstep 0), hend, hsns, hk, hlog⟩

/-! ### The whole operation -/

/-- After the frame's last pulse the head of bit reception's loop is next. -/
theorem jobsBefore_last (par : Params) (bits : Nat) : jobsBefore par (2 + 2 * bits) = receiveJobs := by
  rw [Nat.add_comm]
  exact if_pos (Nat.mul_mod_right 2 bits)

/-- Settles O29: the protocol up to the last pulse by `leads_reading`, the assembly by `leads_receive_done`, and the validation of
the frame, which is that of the reading's durations (`Reading.high_startsWith_highs`). -/
theorem sensorReadsFrame : Obligations.SensorReadsFrame := by
  intro s r fb rest rest' hi hb hr hlen hfb hticks hline
  refine ⟨_, exec_snsRead s, rfl, rfl, ?_⟩
  let w : Work := r.work s.par s.cnt { s.work with i := 0 }
  have hlast : w.i = s.par.frameBits := by
    have hcount := Work.pulses_i s.par (j := 0) (BitVec.ofNat 32 r.released) r.pulses
      (w := { s.work with i := 0, t0 := r.start s.par s.cnt }) rfl
    rw [hlen] at hcount
    exact hcount.trans (by omega)
  have hreading := leads_reading (s := s) (c := s.cnt) (pin := s.sns) (w := { s.work with i := 0 }) hr rfl
  rw [hlen, jobsBefore_last] at hreading
  have hall := hreading.trans (leads_receive_done _ 0 0 0 (Nat.le_of_eq hlast.symm))
  have hframe : decodeFrame s.par.bitThreshold s.par.frameBits w.high = fb := by
    rw [hfb]
    refine decodeFrame_of_startsWith (Reading.high_startsWith_highs s.par s.cnt rfl r) _ ?_
    rw [Reading.highs, length_highSpans, List.length_drop, hlen]
    omega
  obtain ⟨u, hrun, hend, hsns, hk, hlog⟩ := hall.validates (k := 0) (ticks := rest) (lines := rest') rfl
    (Work.pulses_polls ..) (Work.pulses_nXfer ..) hi hb (by simpa using hticks) (by simpa using hline) .snsIdleCheck
  rw [List.append_nil] at hlog
  exact ⟨u, by simpa using hrun, by rwa [← hframe], hsns, hk, hlog⟩

end Sys2Proof.Machine
end

section
/-! The frame's bytes from the high durations, and its validation (spec/41_sensor.md R107 to R110). -/

namespace Sys2Proof.Machine

/-! ### The frame's bits -/

/-- A byte after `n` bits have been shifted in from its low end, bit number 0 first (R108). -/
def shiftedIn (bit : Nat → Bool) (n : Nat) : Byte :=
  (List.range n).foldl (fun b j => (b <<< 1) ||| (BitVec.ofBool (bit j)).setWidth 8) 0

theorem shiftedIn_succ (bit : Nat → Bool) (n : Nat) :
    shiftedIn bit (n + 1) = (shiftedIn bit n) <<< 1 ||| (BitVec.ofBool (bit n)).setWidth 8 := by
  simp [shiftedIn, List.range_succ]

/-- The bit shifted in last is bit 0, and each one before it stands one higher (R108). -/
theorem getLsbD_shiftedIn (bit : Nat → Bool) {n i : Nat} (hn : i < n) (hi : i < 8) :
    (shiftedIn bit n).getLsbD i = bit (n - 1 - i) := by
  induction n generalizing i with
  | zero => exact absurd hn (Nat.not_lt_zero i)
  | succ n ih =>
    rw [shiftedIn_succ, BitVec.getLsbD_or, BitVec.getLsbD_setWidth, BitVec.getLsbD_ofBool]
    cases i with
    | zero => simp
    | succ i =>
      have hshift : ((shiftedIn bit n) <<< 1).getLsbD (i + 1) = (shiftedIn bit n).getLsbD i := by
        simp [hi, BitVec.getLsbD_eq_getElem (show i < 8 by omega)]
      rw [hshift, ih (by omega) (by omega), show n + 1 - 1 - (i + 1) = n - 1 - i by omega]
      simp

theorem frameByte_eq_shiftedIn (threshold : Word) (high : List Word) (k : Nat) :
    frameByte threshold high k = shiftedIn (fun j => bitValue threshold (high.getD (8 * k + j) 0)) 8 := rfl

/-- Bit 7 - j of FB[k] is the bit decided from HIGH[8k + j] (R107, R108). -/
theorem getLsbD_frameByte (threshold : Word) {high : List Word} {k j : Nat} {h : Word} (hj : j < 8)
    (hh : high[8 * k + j]? = some h) : (frameByte threshold high k).getLsbD (7 - j) = bitValue threshold h := by
  rw [frameByte_eq_shiftedIn, getLsbD_shiftedIn _ (by omega) (by omega), show 8 - 1 - (7 - j) = j by omega,
    List.getD_eq_getElem?_getD, hh, Option.getD_some]

theorem length_decodeFrame (threshold : Word) (bits : Nat) (high : List Word) :
    (decodeFrame threshold bits high).length = bits / 8 := by simp [decodeFrame]

theorem decodeFrame_getElem? (threshold : Word) {bits k : Nat} (high : List Word) (hk : k < bits / 8) :
    (decodeFrame threshold bits high)[k]? = some (frameByte threshold high k) := by simp [decodeFrame, hk]

/-- Settles O30, by `getLsbD_frameByte` for each byte of the frame. -/
theorem frameBitsMsbFirst : Obligations.FrameBitsMsbFirst := by
  refine ⟨fun b0 b1 b2 b3 more => ⟨rfl, rfl⟩, fun threshold high _ => ⟨length_decodeFrame threshold 40 high, ?_⟩⟩
  intro k j b h hb hh
  obtain rfl : frameByte threshold high k = b :=
    Option.some.inj ((decodeFrame_getElem? threshold high k.isLt).symm.trans hb)
  exact getLsbD_frameByte threshold j.isLt hh

/-! ### Validation -/

section

variable (b0 b1 b2 b3 b4 : Byte) (more : List Byte)

theorem checksum_cons : checksum (b0 :: b1 :: b2 :: b3 :: more) = b0 + b1 + b2 + b3 := rfl

theorem frameAt_four_cons : frameAt (b0 :: b1 :: b2 :: b3 :: b4 :: more) 4 = b4 := rfl

/-- VAL = {FB[0], FB[1], FB[2], FB[3]}, high byte first (R110). -/
theorem frameVal_cons : frameVal (b0 :: b1 :: b2 :: b3 :: more) = b0 ++ b1 ++ b2 ++ b3 := by
  change (b0 ++ b1) ++ (b2 ++ b3) = b0 ++ b1 ++ b2 ++ b3
  rw [BitVec.append_assoc', BitVec.cast_eq]

end

/-- Settles O31: the validation's step, and what it ends with (`runValidate_spec`). -/
theorem validateFrame : Obligations.ValidateFrame := by
  intro s js b0 b1 b2 b3 b4 more hb hi ht hfb
  let t := takeJob js (advanceTimer s)
  have hstep : step s = .next (runValidate t) := step_job_advance hi hb ht (by simp) rfl
  obtain ⟨hend, hlog, hsns, hkeeps⟩ := runValidate_spec (s := s) (t := t) (by simp [t]) (sensorKeeps_takeJob js s)
  have hframe : t.work.fb = b0 :: b1 :: b2 :: b3 :: b4 :: more := by simp [t, hfb]
  rw [EndsWithFrame, hframe, checksum_cons, frameAt_four_cons, frameVal_cons] at hend
  refine ⟨_, hstep, by simpa [t] using hlog, by simpa [t] using hsns, hkeeps, fun hgood => ?_, fun hbad => ?_⟩
  · rwa [if_pos hgood] at hend
  · rwa [if_neg hbad] at hend

end Sys2Proof.Machine
end

section
/-! The order of bus events (spec/42_lcd_bus.md R118 to R120, R133): what a job of the bus and what any other job does to it, what
an instruction's meaning puts ahead, and that every step keeps it. -/

namespace Sys2Proof.Machine

/-! ### Where the bus stands -/

/-- The bus is in phase `p`: the log has brought it there, E stands as the phase has it, and the jobs `js` end its cycle. -/
structure BusStands (s : State) (js : List Job) (p : BusPhase) : Prop where
  log : busLog s.par.hasRw .idle s.obs.log = some p
  ahead : busJobs s.par.hasRw p js = some .idle
  enable : s.lcd.e = p.enabled

theorem busOrdered_iff {s : State} :
    BusOrdered s ↔ (∃ p, BusStands s s.todo p) ∧ (s.port.opbusy = false → s.todo = []) := by
  constructor
  · rintro ⟨p, hlog, hahead, he, hidle⟩
    exact ⟨⟨p, hlog, hahead, he⟩, hidle⟩
  · rintro ⟨⟨p, hlog, hahead, he⟩, hidle⟩
    exact ⟨p, hlog, hahead, he, hidle⟩

/-- With no job ahead the bus is between cycles. -/
theorem BusStands.idle_of_nil {s : State} {p : BusPhase} (h : BusStands s [] p) : p = .idle := Option.some.inj h.ahead

/-- With no job ahead E = 0. -/
theorem BusStands.low_of_nil {s : State} {p : BusPhase} (h : BusStands s [] p) : s.lcd.e = false := by
  rw [h.enable, h.idle_of_nil]
  rfl

/-- The same log and E, with other jobs ahead. -/
theorem BusStands.congr {s t : State} {js js' : List Job} {p : BusPhase} (h : BusStands s js p) (hpar : t.par = s.par)
    (hlog : t.obs.log = s.obs.log) (hlcd : t.lcd = s.lcd) (hahead : busJobs s.par.hasRw p js' = some .idle) :
    BusStands t js' p :=
  ⟨by rw [hpar, hlog, h.log], by rw [hpar, hahead], by rw [hlcd, h.enable]⟩

/-- One event more takes the bus where R119's order has it. -/
theorem BusStands.event {s t : State} {js js' : List Job} {p q : BusPhase} {ev : Event} (h : BusStands s js p)
    (hpar : t.par = s.par) (hlog : t.obs.log = s.obs.log ++ [ev]) (hev : busNext s.par.hasRw p ev = some q)
    (hahead : busJobs s.par.hasRw q js' = some .idle) (he : t.lcd.e = q.enabled) : BusStands t js' q :=
  ⟨by rw [hpar, hlog, busLog_snoc h.log, hev], by rw [hpar, hahead], he⟩

/-- An event that leaves E does as well. -/
theorem BusStands.event_lcd {s t : State} {js js' : List Job} {p q : BusPhase} {ev : Event} (h : BusStands s js p)
    (hpar : t.par = s.par) (hlog : t.obs.log = s.obs.log ++ [ev]) (hev : busNext s.par.hasRw p ev = some q)
    (hahead : busJobs s.par.hasRw q js' = some .idle) (hne : ∀ v, ev ≠ .e v) (he : t.lcd.e = s.lcd.e) : BusStands t js' q :=
  h.event hpar hlog hev hahead (by rw [he, h.enable, busNext_enabled hne hev])

/-! ### What a job does -/

/-- A job of a bus cycle: it writes or samples the LCD pins, or it is a step of a wait (R122). -/
def Job.onBus : Job → Bool
  | .cntReset | .spin _ | .setRS _ | .setRW _ | .setDDir _ | .setE _ | .drive _ | .sample _ => true
  | _ => false

/-- Any other job comes between cycles. -/
theorem busJob_of_not_onBus {hasRw : Bool} {p q : BusPhase} {j : Job} (hj : j.onBus = false)
    (h : busJob hasRw p j = some q) : p = .idle ∧ q = .idle := by
  have hbetween : busJob hasRw p j = if p = .idle then some .idle else none := by
    cases j with
    | cntReset | spin | setRS | setRW | setDDir | setE | drive | sample => cases hj
    | _ => rfl
  rw [hbetween] at h
  split at h
  · exact ⟨‹_›, (Option.some.inj h).symm⟩
  · cases h

/-- A job of a bus cycle appends its event, and a wait's loop may go on. -/
theorem BusStands.runJob_onBus {s : State} {j : Job} {p : BusPhase} (hj : j.onBus = true)
    (h : BusStands s (j :: s.todo) p) : ∃ q, BusStands (runJob j s) (runJob j s).todo q := by
  obtain ⟨q, hq, hjs⟩ := busJobs_cons h.ahead
  refine ⟨q, ?_⟩
  cases j with
  | setRS | setRW | setDDir | drive | cntReset => exact h.event_lcd rfl rfl hq hjs (by simp) rfl
  | setE v => exact h.event rfl rfl hq hjs (busNext_e hq).symm
  | spin n =>
    have hread : busNext s.par.hasRw p (.tread s.cnt) = some q := (busNext_tread ..).trans hq
    simp only [runJob, runSpin]
    split
    · exact h.event_lcd rfl rfl hread hjs (by simp) rfl
    · obtain rfl := busNext_tread_same hread
      exact h.event_lcd rfl rfl hread h.ahead (by simp) rfl
  | sample lane =>
    simp only [runJob, runSample]
    have hsample (v : DataVal) : busNext s.par.hasRw p (.dsample v) = some q := (busNext_dsample ..).trans hq
    rcases drawPins_cases s with ⟨v, rest, -, hd⟩ | ⟨-, hd⟩ <;> rw [hd]
    · exact h.event_lcd rfl rfl (hsample _) hjs (by simp) rfl
    · exact h.event_lcd rfl rfl (hsample _) hjs (by simp) rfl
  | _ => cases hj

/-- What a job between cycles does to the log and to the jobs ahead: it appends no event of a bus cycle, and it puts back jobs
that run from between cycles to between cycles, or leaves such jobs alone. -/
structure StaysBetween (s t : State) : Prop where
  log : t.obs.log = s.obs.log ∨ ∃ ev, nextIdle ev = some .idle ∧ t.obs.log = s.obs.log ++ [ev]
  ahead : ∃ js, busJobs s.par.hasRw .idle js = some .idle ∧ (t.todo = js ++ s.todo ∨ t.todo = js)

theorem StaysBetween.event {s t : State} {ev : Event} (js : List Job) (hlog : t.obs.log = s.obs.log ++ [ev])
    (hev : nextIdle ev = some .idle) (hjs : busJobs s.par.hasRw .idle js = some .idle) (ht : t.todo = js ++ s.todo) :
    StaysBetween s t :=
  ⟨.inr ⟨ev, hev, hlog⟩, js, hjs, .inl ht⟩

theorem StaysBetween.silent {s t : State} (js : List Job) (hlog : t.obs.log = s.obs.log)
    (hjs : busJobs s.par.hasRw .idle js = some .idle) (ht : t.todo = js ++ s.todo) : StaysBetween s t :=
  ⟨.inl hlog, js, hjs, .inl ht⟩

/-- An operation that fails with an event has its raise alone ahead. -/
theorem StaysBetween.fails {s t : State} {ev : Event} (st : Status) (hlog : t.obs.log = s.obs.log ++ [ev])
    (hev : nextIdle ev = some .idle) (ht : t.todo = [.raise st]) : StaysBetween s t :=
  ⟨.inr ⟨ev, hev, hlog⟩, [.raise st], rfl, .inr ht⟩

/-- The end of an operation leaves no job and appends no event. -/
theorem StaysBetween.ends {s t : State} (hlog : t.obs.log = s.obs.log) (ht : t.todo = []) : StaysBetween s t :=
  ⟨.inl hlog, [], rfl, .inr ht⟩

theorem staysBetween_push_snsRead (s : State) {js : List Job} (hjs : busJobs s.par.hasRw .idle js = some .idle) :
    StaysBetween s (push js (snsRead s).2) := by
  obtain ⟨v, env, d, h, -⟩ := snsRead_spec s
  rw [h]
  exact .event js rfl rfl hjs rfl

theorem staysBetween_runPulse (level : Bool) (limit : Option Word) (dst : PulseTo) (s : State) :
    StaysBetween s (runPulse level limit dst s) := by
  unfold runPulse
  split
  · cases limit <;> exact staysBetween_push_snsRead s rfl
  · exact staysBetween_push_snsRead s rfl

theorem staysBetween_runPulseEnd (limit : Option Word) (dst : PulseTo) (s : State) :
    StaysBetween s (runPulseEnd limit dst s) := by
  unfold runPulseEnd
  split
  · exact .fails .ackTimeout rfl rfl rfl
  · cases dst <;> exact .event [] rfl rfl rfl rfl

theorem staysBetween_runPollTest (s : State) : StaysBetween s (runPollTest s) := by
  unfold runPollTest
  split
  · split
    · exact .silent [] rfl rfl rfl
    · exact .silent (waitTicks s.par.pollInterval ++ [.poll]) rfl rfl rfl
  · exact .silent [] rfl rfl rfl

theorem staysBetween_runRaise (st : Status) (s : State) : StaysBetween s (runRaise st s) := by
  obtain ⟨v, w, f, d, h⟩ := runRaise_spec st s
  rw [h]
  exact .ends rfl rfl

theorem staysBetween_runJob {j : Job} (hj : j.onBus = false) (s : State) : StaysBetween s (runJob j s) := by
  cases j with
  | cntReset | spin | setRS | setRW | setDDir | setE | drive | sample => cases hj
  | delayMs | snsConfig | snsDrive | snapT0 => exact .event [] rfl rfl rfl rfl
  | timerRead => exact .event [.timerEnd s.cnt] rfl rfl rfl rfl
  | timerWait n =>
    simp only [runJob, runTimerWait]
    split
    · exact .event [.timerEnd s.cnt] rfl rfl rfl rfl
    · exact .event [.timerWait n] rfl rfl rfl rfl
  | awaitLevel level limit =>
    simp only [runJob, runAwaitLevel]
    split
    · exact staysBetween_push_snsRead s (js := []) rfl
    · exact staysBetween_push_snsRead s rfl
  | awaitCheck level limit =>
    simp only [runJob, runAwaitCheck]
    split
    · exact .fails .sensorBusy rfl rfl rfl
    · exact .event [.awaitLevel level limit] rfl rfl rfl rfl
  | pulse level limit dst => exact staysBetween_runPulse level limit dst s
  | pulseCheck level limit dst =>
    simp only [runJob, runPulseCheck]
    split
    · exact .fails .ackTimeout rfl rfl rfl
    · exact .event [.pulse level (some limit) dst] rfl rfl rfl rfl
  | pulseEnd limit dst => exact staysBetween_runPulseEnd limit dst s
  | bits =>
    simp only [runJob, runBits]
    split
    · exact .silent (bitJobs s.work.i s.par.bitPulseLimit) rfl rfl rfl
    · exact .silent [] rfl rfl rfl
  | enter | nextBit | assemble | setAc | incAc | acFromRead | setSettings | rowCap | storeRead =>
    exact .silent [] rfl rfl rfl
  | transfer w => exact .silent [.transfer w] rfl rfl rfl
  | waitReady long =>
    simp only [runJob, runWaitReady]
    split
    · exact .silent [.poll] rfl rfl rfl
    · exact .silent (waitTicks (if long then s.par.blindLong else s.par.blindShort)) rfl rfl rfl
  | poll => exact .silent [.transfer .busyr, .pollTest] rfl rfl rfl
  | pollTest => exact staysBetween_runPollTest s
  | readEnd => exact .silent [.waitReady false, .lcdEnd (zextByte s.work.rx)] rfl rfl rfl
  | writeNext i =>
    simp only [runJob, runWriteNext]
    split
    · exact .silent [.transfer (.datw (s.port.wbuf.read i)), .waitReady false, .writeNext (i + 1)] rfl rfl rfl
    · exact .ends rfl rfl
  | readNext i =>
    simp only [runJob, runReadNext]
    split
    · exact .silent [.transfer .datr, .storeRead i, .waitReady false, .readNext (i + 1)] rfl rfl rfl
    · exact .ends rfl rfl
  | validate =>
    simp only [runJob, runValidate]
    split
    · exact .ends rfl rfl
    · exact .ends rfl rfl
  | timerEnd | initEnd | busyEnd | settingsEnd | lcdEnd => exact .ends rfl rfl
  | raise st => exact staysBetween_runRaise st s

/-- A job that is not of the bus leaves the LCD pins. -/
theorem runJob_lcd_of_not_onBus {j : Job} (hj : j.onBus = false) (s : State) : (runJob j s).lcd = s.lcd := by
  by_contra hne
  have hw := (runJob_does j s).lcd_writers hne
  cases j with
  | setRS | setRW | setDDir | setE | drive => cases hj
  | _ => cases hw

/-- Between cycles a job that stays there keeps the bus there. -/
theorem BusStands.runJob_between {s : State} {j : Job} {p : BusPhase} (hj : j.onBus = false)
    (h : BusStands s (j :: s.todo) p) : BusStands (runJob j s) (runJob j s).todo .idle := by
  obtain ⟨q, hq, hjs⟩ := busJobs_cons h.ahead
  obtain ⟨rfl, rfl⟩ := busJob_of_not_onBus hj hq
  obtain ⟨hlog, js, hback, htodo⟩ := staysBetween_runJob hj s
  have hpar : (runJob j s).par = s.par := (runJob_does j s).par
  have hlcd := runJob_lcd_of_not_onBus hj s
  have hahead : busJobs s.par.hasRw .idle (runJob j s).todo = some .idle := by
    rcases htodo with ht | ht
    · rw [ht, busJobs_before hback, hjs]
    · rw [ht, hback]
  rcases hlog with hlog | ⟨ev, hev, hlog⟩
  · exact h.congr hpar hlog hlcd hahead
  · exact h.event hpar hlog hev hahead (by rw [hlcd, h.enable])

theorem BusStands.runJob {s : State} {j : Job} {p : BusPhase} (h : BusStands s (j :: s.todo) p) :
    ∃ q, BusStands (runJob j s) (runJob j s).todo q := by
  cases hj : j.onBus with
  | true => exact h.runJob_onBus hj
  | false => exact ⟨.idle, h.runJob_between hj⟩

/-! ### What an instruction's meaning puts ahead -/

/-- The jobs ahead run from between cycles to between cycles. -/
def BetweenAhead (hasRw : Bool) (t : State) : Prop := busJobs hasRw .idle t.todo = some .idle

theorem busJobs_initFunctionSet (hasRw : Bool) (par : Params) (dl : Bool) (fs : Byte) :
    busJobs hasRw .idle (initFunctionSet par dl fs) = some .idle := by
  unfold initFunctionSet
  split
  · rw [busJobs_before (busJobs_initSets8 ..)]
    rfl
  · rw [List.append_assoc, List.append_assoc, busJobs_before (busJobs_initSets4 ..)]
    rfl

theorem busJobs_initJobs (hasRw : Bool) (par : Params) (dl : Bool) (fs : Byte) :
    busJobs hasRw .idle (initJobs par dl fs) = some .idle := by
  have hdelay : busJobs hasRw .idle [.delayMs par.powerOnMs] = some .idle := rfl
  simp only [initJobs, List.append_assoc]
  rw [busJobs_before hdelay, busJobs_before (busJobs_initFunctionSet ..)]
  rfl

theorem betweenAhead_lcdJobs {hasRw : Bool} {js : List Job} (h : busJobs hasRw .idle js = some .idle) (s : State) :
    BetweenAhead hasRw (lcdJobs js s) := h

theorem betweenAhead_lcdPrologue {hasRw : Bool} {body : State → State} (hbody : ∀ s, BetweenAhead hasRw (body s)) (s : State) :
    Yields (BetweenAhead hasRw) (lcdPrologue body s) := by
  unfold lcdPrologue
  split
  · exact hbody _
  · exact rfl

theorem betweenAhead_needsRw {hasRw : Bool} {body : State → State} (hbody : ∀ s, BetweenAhead hasRw (body s)) (s : State) :
    BetweenAhead hasRw (needsRw body s) := by
  unfold needsRw
  split
  · exact hbody s
  · exact rfl

theorem betweenAhead_issueCommand {s : State} (h : BetweenAhead s.par.hasRw s) (b : Byte) {after : List Job}
    (hafter : busJobs s.par.hasRw .idle after = some .idle) :
    Yields (BetweenAhead s.par.hasRw) (issueCommand b after s) := by
  change busJobs _ _ (_ ++ after ++ s.todo) = _
  rw [List.append_assoc, busJobs_before (busJobs_xferWrite ..), busJobs_before hafter, h]

theorem betweenAhead_issueRead {s : State} (h : BetweenAhead s.par.hasRw s) (rs : Bool) {after : List Job}
    (hafter : busJobs s.par.hasRw .idle after = some .idle) :
    Yields (BetweenAhead s.par.hasRw) (issueRead rs after s) := by
  unfold issueRead
  split
  · change busJobs _ _ (_ ++ after ++ s.todo) = _
    rw [List.append_assoc, busJobs_before (busJobs_xferRead _ _ _ ‹_›), busJobs_before hafter, h]
  · exact rfl

theorem betweenAhead_nibbleCycle {s : State} (h : BetweenAhead s.par.hasRw s) (n : BitVec 4) :
    Yields (BetweenAhead s.par.hasRw) (.next (push (nibbleCycle s.par s.cfg.dl n) s)) := by
  change busJobs _ _ (_ ++ s.todo) = _
  rw [busJobs_before (busJobs_nibbleCycle ..), h]

/-- An instruction between cycles puts jobs ahead that run from between cycles to between cycles. -/
theorem betweenAhead_exec (i : Instr) {s : State} (h : BetweenAhead s.par.hasRw s) :
    Yields (BetweenAhead s.par.hasRw) (exec i s) := by
  cases i with
  | tmrElapsed | tmrResetWait | snsRead => exact rfl
  | lcdInit cols f n dl =>
    change Yields _ (execLcdInit cols f n dl s)
    unfold execLcdInit
    split
    · exact busJobs_initJobs ..
    · exact rfl
  | lcdSetAddress addr =>
    change Yields _ (execLcdSetAddress addr s)
    unfold execLcdSetAddress
    split
    · exact rfl
    · exact betweenAhead_lcdPrologue (betweenAhead_lcdJobs rfl) s
  | lcdSetCursor row col =>
    change Yields _ (execLcdSetCursor row col s)
    refine betweenAhead_lcdPrologue (fun s => ?_) s
    split <;> exact rfl
  | lcdWriteRow n =>
    change Yields _ (execLcdWriteRow n s)
    refine betweenAhead_lcdPrologue (fun s => ?_) s
    rw [BetweenAhead, lcdJobs, load_todo]
    split <;> rfl
  | lcdSetDisplay | lcdClear | lcdHome | lcdWrite | lcdGetSettings => exact betweenAhead_lcdPrologue (betweenAhead_lcdJobs rfl) s
  | lcdRead | lcdReadRow | lcdIsBusy => exact betweenAhead_lcdPrologue (betweenAhead_needsRw fun _ => betweenAhead_lcdJobs rfl _) s
  | busClearDisplay | busReturnHome | busEntryModeSet | busDisplayControl | busFunctionSet | busSetDdramAddress =>
    exact betweenAhead_issueCommand h _ rfl
  | busNib3 | busNib2 => exact betweenAhead_nibbleCycle h _
  | busDataWrite data =>
    change busJobs _ _ (_ ++ [.incAc] ++ s.todo) = _
    rw [List.append_assoc, busJobs_before (busJobs_xferWrite ..)]
    exact h
  | busBusyRead | busDataRead => exact betweenAhead_issueRead h _ rfl

/-- An instruction taken between cycles leaves the bus there, with jobs ahead that end between cycles. -/
theorem BusStands.exec {s t : State} {i : Instr} (h : BusStands s s.todo .idle) (hexec : exec i s = .next t) :
    BusStands t t.todo .idle := by
  have quiet : StartsQuietly s t := (yields_exec i s).of_next hexec
  exact h.congr quiet.par (by rw [quiet.obs]) quiet.lcd ((betweenAhead_exec i h.ahead).of_next hexec)

/-! ### What a step does -/

/-- What the invariant does not speak of may change. -/
theorem BusOrdered.congr {s t : State} (h : BusOrdered s) (hpar : t.par = s.par) (hobs : t.obs = s.obs) (hlcd : t.lcd = s.lcd)
    (htodo : t.todo = s.todo) (hbusy : t.port.opbusy = s.port.opbusy) : BusOrdered t := by
  unfold BusOrdered at h ⊢
  rwa [hpar, hobs, hlcd, htodo, hbusy]

/-- An operation without jobs is released between cycles (assumption log 27). -/
theorem BusOrdered.after_release {s : State} (h : BusOrdered s) (ht : s.todo = []) : BusOrdered (release s) := by
  obtain ⟨p, hlog, hahead, he, -⟩ := h
  exact ⟨p, hlog, hahead, he, fun _ => ht⟩

/-- A job that is taken and run keeps the invariant. -/
theorem BusOrdered.after_job {s : State} {j : Job} {js : List Job} (h : BusOrdered s) (hb : s.port.opbusy = true)
    (ht : s.todo = j :: js) : BusOrdered (runJob j (takeJob js s)) := by
  obtain ⟨⟨p, hp⟩, -⟩ := busOrdered_iff.1 h
  have htaken : BusStands (takeJob js s) (j :: js) p := hp.congr rfl rfl rfl (by rw [← ht, hp.ahead])
  exact busOrdered_iff.2 ⟨htaken.runJob, (runJob_does j _).todo_nil hb⟩

/-- A transfer that is taken between cycles keeps the invariant. -/
theorem BusOrdered.after_transfer {s t : State} {w : BusWord} {i : Instr} {js : List Job} (h : BusOrdered s)
    (hb : s.port.opbusy = true) (ht : s.todo = .transfer w :: js) (hexec : exec i (takeJob js s) = .next t) :
    BusOrdered t := by
  obtain ⟨⟨p, hp⟩, -⟩ := busOrdered_iff.1 h
  have hahead := hp.ahead
  rw [ht] at hahead
  obtain ⟨q, hq, hjs⟩ := busJobs_cons hahead
  obtain ⟨rfl, rfl⟩ := busJob_of_not_onBus rfl hq
  have htaken : BusStands (takeJob js s) js .idle := hp.congr rfl rfl rfl hjs
  have hport : t.port = s.port := ((yields_exec i _).of_next hexec).port
  exact busOrdered_iff.2 ⟨⟨.idle, htaken.exec hexec⟩, fun hb' => by simp [hport, hb] at hb'⟩

/-- With no operation running the bus is between cycles, and it stays there while a word of CMD is accepted. -/
theorem BusOrdered.stands_accept {s : State} (h : BusOrdered s) (hb : s.port.opbusy = false) (w : Word) :
    BusStands (accept w s) (accept w s).todo .idle := by
  obtain ⟨⟨p, hp⟩, hidle⟩ := busOrdered_iff.1 h
  have ht : s.todo = [] := hidle hb
  rw [ht] at hp
  obtain rfl := hp.idle_of_nil
  exact hp.congr rfl rfl rfl (by rw [accept_todo, ht]; rfl)

/-- An operation starts between cycles. -/
theorem BusOrdered.after_command {s t : State} {w : Word} {i : Instr} (h : BusOrdered s) (hb : s.port.opbusy = false)
    (hexec : exec i (accept w s) = .next t) : BusOrdered t := by
  have hport : t.port = (accept w s).port := ((yields_exec i _).of_next hexec).port
  exact busOrdered_iff.2 ⟨⟨.idle, (h.stands_accept hb w).exec hexec⟩, fun hb' => by simp [hport] at hb'⟩

/-- An illegal word leaves its raise ahead. -/
theorem BusOrdered.after_rejectWord {s : State} (h : BusOrdered s) (hb : s.port.opbusy = false) (w : Word) :
    BusOrdered (rejectWord w s) :=
  busOrdered_iff.2 ⟨⟨.idle, (h.stands_accept hb w).congr rfl rfl rfl rfl⟩, fun hb' => by simp at hb'⟩

/-- After RST the log is empty, E = 0 and no job is ahead (R41, R178). -/
theorem busOrdered_applyReset (s : State) : BusOrdered (applyReset s) := ⟨.idle, rfl, rfl, rfl, fun _ => rfl⟩

/-- Every step keeps the bus invariant. -/
theorem BusOrdered.after_step {s t : State} (h : BusOrdered s) (hstep : step s = .next t) : BusOrdered t := by
  have acts {a : State} (ha : a = advanceTimer s ∨ a = { advanceTimer s with inputs := s.inputs.tail }) : BusOrdered a := by
    rcases ha with rfl | rfl
    · exact h.congr (by simp) (by simp) (by simp) (by simp) (by simp)
    · exact h.congr (by simp) (by simp) (by simp) (by simp) (by simp)
  rcases step_cases hstep with
    ⟨a, ha, ⟨-, rfl⟩ | ⟨-, ht, rfl⟩ | ⟨j, js, hb, ht, -, -, rfl⟩ | ⟨w, i, js, hb, ht, -, hexec⟩⟩ |
    ⟨a, ha, ⟨w, i, hb, -, hexec⟩ | ⟨w, r, hb, -, rfl⟩ | ⟨v, -, rfl⟩ | ⟨i, v, -, -, rfl⟩ | rfl⟩
  · exact acts ha
  · exact (acts ha).after_release ht
  · exact (acts ha).after_job hb ht
  · exact (acts ha).after_transfer hb ht hexec
  · exact (acts (.inr ha)).after_command hb hexec
  · exact (acts (.inr ha)).after_rejectWord hb w
  · exact (acts (.inr ha)).congr rfl rfl rfl rfl rfl
  · exact (acts (.inr ha)).congr rfl rfl rfl rfl rfl
  · exact busOrdered_applyReset a

/-- Settles O21: every step keeps the invariant (`BusOrdered.after_step`), and with no operation running no job is ahead, so that
no cycle is under way. -/
theorem stepKeepsBusOrder : Obligations.StepKeepsBusOrder := by
  intro s t hs hstep
  have ht := hs.after_step hstep
  obtain ⟨⟨p, hp⟩, hidle⟩ := busOrdered_iff.1 ht
  exact ⟨ht, fun hb => (hidle hb ▸ hp : BusStands t [] p).low_of_nil⟩

end Sys2Proof.Machine
end

section
/-! WaitReady and AC_SHADOW (spec/42_lcd_bus.md R128 to R131): the test of a poll, the fixed delay without an RW pin, and who
writes AC_SHADOW. -/

namespace Sys2Proof.Machine

/-! ### The test of a poll -/

/-- A ready answer ends the wait (R128). -/
theorem runPollTest_ready {s : State} (h : busyFlag s.work.rx = false) : runPollTest s = s := by simp [runPollTest, h]

/-- The MAX_POLLS-th busy answer ends the wait and sets TOFLAG (R129). -/
theorem runPollTest_last {s : State} (h : busyFlag s.work.rx = true) (hlast : s.par.maxPolls ≤ s.work.polls + 1) :
    runPollTest s = { s with work.polls := s.work.polls + 1, toflag := true } := by simp [runPollTest, h, hlast]

/-- An earlier busy answer is followed by POLL_INTERVAL and a further poll (R128). -/
theorem runPollTest_again {s : State} (h : busyFlag s.work.rx = true) (hmore : s.work.polls + 1 < s.par.maxPolls) :
    runPollTest s = push (waitTicks s.par.pollInterval ++ [.poll]) { s with work.polls := s.work.polls + 1 } := by
  simp [runPollTest, h, Nat.not_le.2 hmore]

/-- Settles O42: the step runs the test, and each of its outcomes is an equation above. -/
theorem pollDecision : Obligations.PollDecision := by
  intro s js hb hi ht
  let a := takeJob js (advanceTimer s)
  have hstep : step s = .next (runPollTest a) := step_job_advance hi hb ht (by simp) rfl
  have hrx : busyFlag a.work.rx = s.work.rx.getLsbD 7 := by simp [a, busyFlag]
  refine ⟨_, hstep, ?_⟩
  cases hbusy : s.work.rx.getLsbD 7 with
  | false =>
    rw [runPollTest_ready (hrx.trans hbusy)]
    simp [a]
  | true =>
    rcases Nat.lt_or_ge (s.work.polls + 1) s.par.maxPolls with hmore | hlast
    · rw [runPollTest_again (hrx.trans hbusy) (by simpa [a] using hmore)]
      simp [a, waitTicks, Nat.not_le.2 hmore]
    · rw [runPollTest_last (hrx.trans hbusy) (by simpa [a] using hlast)]
      simp [a, Nat.not_lt.2 hlast]

/-! ### The fixed delay -/

/-- Without an RW pin WaitReady is a wait of BLIND_LONG or BLIND_SHORT (R130). -/
theorem unfolds_waitReady_blind {s : State} (hrw : s.par.hasRw = false) (long : Bool) :
    Unfolds s (.waitReady long) (waitTicks (if long then s.par.blindLong else s.par.blindShort)) s :=
  unfolds_job (by simp) rfl fun rest ph c ticks log => by
    simp only [runJob, runWaitReady, State.atPlace, hrw]
    rfl

/-- Settles O43: the delay is performed (`performs_wait`) in the place of WaitReady, with no other change. -/
theorem blindWait : Obligations.BlindWait := by
  intro s long js hpaced hrw ht
  have hwait := (unfolds_waitReady_blind hrw long).performs rfl rfl rfl (performs_wait s (blind_le_longestWait s.par long))
  obtain ⟨k, ph, c, evs, hrun, hshows⟩ := hwait.run (hpaced.mono (by decide)) ht
  exact ⟨k, _, evs, hrun, rfl, rfl, rfl, rfl, rfl, rfl, hshows⟩

/-! ### Who writes AC_SHADOW -/

/-- AC_SHADOW after a job: only R131's three jobs write it. -/
def Job.acAfter (s : State) : Job → BitVec 7
  | .setAc a => a
  | .incAc => s.ac + 1
  | .acFromRead => addressCounter s.work.rx
  | _ => s.ac

theorem runJob_ac (j : Job) (s : State) : (runJob j s).ac = j.acAfter s := by
  have hsample (js : List Job) : (push js (snsRead s).2).ac = s.ac := by
    obtain ⟨log, env, d, h, -⟩ := snsRead_state s
    rw [h]
    rfl
  cases j with
  | spin n => simp only [runJob, runSpin]; split <;> rfl
  | timerWait n => simp only [runJob, runTimerWait]; split <;> rfl
  | awaitLevel level limit =>
    simp only [runJob, runAwaitLevel]
    split
    · exact hsample []
    · exact hsample _
  | awaitCheck level limit => simp only [runJob, runAwaitCheck]; split <;> rfl
  | pulse level limit dst =>
    simp only [runJob, runPulse]
    split
    · cases limit <;> exact hsample _
    · exact hsample _
  | pulseCheck level limit dst => simp only [runJob, runPulseCheck]; split <;> rfl
  | pulseEnd limit dst =>
    simp only [runJob, runPulseEnd]
    split
    · rfl
    · cases dst <;> rfl
  | bits => simp only [runJob, runBits]; split <;> rfl
  | validate => simp only [runJob, runValidate]; split <;> rfl
  | sample lane =>
    simp only [runJob, runSample]
    rcases drawPins_cases s with ⟨v, rest, -, h⟩ | ⟨-, h⟩ <;> rw [h] <;> rfl
  | waitReady long => simp only [runJob, runWaitReady]; split <;> rfl
  | pollTest => simp only [runJob, runPollTest]; split_ifs <;> rfl
  | writeNext i => simp only [runJob, runWriteNext]; split <;> rfl
  | readNext i => simp only [runJob, runReadNext]; split <;> rfl
  | raise st =>
    obtain ⟨v, w, f, d, h⟩ := runRaise_spec st s
    simp only [runJob, h]
    rfl
  | delayMs | cntReset | timerRead | timerEnd | snsConfig | snsDrive | snapT0 | enter | nextBit | assemble | setRS | setRW
  | setDDir | setE | drive | transfer | setAc | incAc | acFromRead | poll | initEnd | setSettings | rowCap | storeRead
  | readEnd | busyEnd | settingsEnd | lcdEnd => rfl

/-- A job that changes AC_SHADOW is one of R131's three. -/
theorem Job.ac_writers {s : State} {j : Job} (hne : j.acAfter s ≠ s.ac) :
    (∃ a, j = .setAc a ∧ j.acAfter s = a) ∨ (j = .incAc ∧ j.acAfter s = s.ac + 1) ∨
      (j = .acFromRead ∧ j.acAfter s = addressCounter s.work.rx) := by
  cases j with
  | setAc a => exact .inl ⟨a, rfl, rfl⟩
  | incAc => exact .inr (.inl ⟨rfl, rfl⟩)
  | acFromRead => exact .inr (.inr ⟨rfl, rfl⟩)
  | _ => exact absurd rfl hne

theorem JobDoes.pastRuns {s t : State} {j : Job} (h : JobDoes s j t) : t.obs.pastRuns = s.obs.pastRuns := by
  cases h <;> rfl

/-- Only RST ends a run (R178). -/
theorem step_pastRuns {s t : State} (hstep : step s = .next t) (hr : s.inputs.head? ≠ some .rst) :
    t.obs.pastRuns = s.obs.pastRuns := by
  rcases (step_does hstep).cases_job hr with ⟨j, js, -, h⟩ | h
  · simpa using h.pastRuns
  · rw [h.obs, takeInput_obs]

/-- Settles O16, over what a step can do (`step_cases`): a job writes AC_SHADOW as `runJob_ac` says, and nothing else but RST
writes it. -/
theorem acShadowWriters : Obligations.AcShadowWriters := by
  intro s t hstep hr hne
  have acts {a : State} (ha : a = advanceTimer s ∨ a = { advanceTimer s with inputs := s.inputs.tail }) :
      a.ac = s.ac ∧ a.todo = s.todo ∧ a.work = s.work := by
    rcases ha with rfl | rfl <;> simp
  have quiet {i : Instr} {a : State} (hexec : exec i a = .next t) (ha : a.ac = s.ac) : t.ac = s.ac :=
    ((yields_exec i a).of_next hexec).ac.trans ha
  rcases step_cases hstep with
    ⟨a, ha, ⟨-, rfl⟩ | ⟨-, -, rfl⟩ | ⟨j, js, -, ht, -, -, rfl⟩ | ⟨w, i, js, -, -, -, hexec⟩⟩ |
    ⟨a, ha, ⟨w, i, -, -, hexec⟩ | ⟨w, r, -, -, rfl⟩ | ⟨v, -, rfl⟩ | ⟨i, v, -, -, rfl⟩ | rfl⟩
  · exact absurd (acts ha).1 hne
  · exact absurd (acts ha).1 hne
  · obtain ⟨hac, htodo, hwork⟩ := acts ha
    rw [← htodo, ht]
    rw [runJob_ac] at hne ⊢
    simpa [hac, hwork] using Job.ac_writers (s := takeJob js a) (j := j) (by simpa [hac] using hne)
  · exact absurd (quiet hexec (acts ha).1) hne
  · exact absurd (quiet hexec (acts (.inr ha)).1) hne
  · exact absurd (acts (.inr ha)).1 hne
  · exact absurd (acts (.inr ha)).1 hne
  · exact absurd (acts (.inr ha)).1 hne
  · have hpast := step_pastRuns hstep hr
    simp [ha, applyReset] at hpast

end Sys2Proof.Machine
end

section
/-! A controller that never gets ready (spec/42_lcd_bus.md R128, R129; spec/60_exceptions.md R165): its busy answers in the
course of a wait, and the operations of one transfer, which end with STATUS 4. -/

namespace Sys2Proof.Machine

/-! ### The polls of a wait -/

theorem pollItems_cons (par : Params) (dl : Bool) (b : Byte) {bs : List Byte} (h : bs ≠ []) :
    pollItems par dl (b :: bs) = readItems par dl false b ++ [.wait par.pollInterval] ++ pollItems par dl bs := by
  obtain ⟨c, cs, rfl⟩ := List.exists_cons_of_ne_nil h
  rfl

/-- `n + 1` busy answers: as many busy reads, POLL_INTERVAL apart, AC_SHADOW as the last of them has it, and TOFLAG (R128,
R129). -/
theorem Course.polls_busy (n : Nat) {x : Course} (hlen : n + 1 ≤ x.left.length)
    (hbusy : ∀ b ∈ x.left.take (n + 1), b.getLsbD 7 = true) :
    (x.polls n).items = x.items ++ pollItems x.par x.dl (x.left.take (n + 1)) ∧
      (x.polls n).ac = addressCounter (x.left.getD n 0) ∧ (x.polls n).late = true := by
  obtain ⟨b, bs, hleft⟩ := List.exists_cons_of_length_pos (Nat.lt_of_lt_of_le (Nat.succ_pos n) hlen)
  rw [hleft] at hlen hbusy ⊢
  have hfirst : (x.left.headD 0).getLsbD 7 = true := by
    rw [hleft]
    exact hbusy b (by simp)
  cases n with
  | zero =>
    have hread : (x.polls 0).items = x.items ++ readItems x.par x.dl false (x.left.headD 0) := rfl
    have hac : (x.polls 0).ac = addressCounter (x.left.headD 0) := rfl
    rw [hleft] at hread hac
    exact ⟨hread, hac, by rw [Course.polls, hfirst, Bool.or_true]⟩
  | succ n =>
    have hrest : (x.busyRead.pause x.par.pollInterval).left = bs := congrArg List.tail hleft
    obtain ⟨hitems, hac, hlate⟩ := Course.polls_busy n (x := x.busyRead.pause x.par.pollInterval)
      (by rw [hrest]; exact Nat.le_of_succ_le_succ hlen)
      (by rw [hrest]; exact fun c hc => hbusy c (List.mem_cons_of_mem _ hc))
    rw [hrest] at hitems hac
    rw [Course.polls_again n hfirst, hitems, hac, hlate, List.take_succ_cons, pollItems_cons]
    · refine ⟨?_, rfl, rfl⟩
      change x.items ++ readItems x.par x.dl false (x.left.headD 0) ++ [.wait x.par.pollInterval] ++ _ = _
      rw [hleft]
      simp [Course.pause, Course.more, Course.busyRead, Course.receive, Course.setAc]
    · exact List.ne_nil_of_length_pos (by simp at hlen ⊢; omega)

/-- WaitReady(long) with an RW pin needs an answer for each of its polls (R128). -/
theorem conducts_wait_polls (long : Bool) {s : State} {x : Course} (hx : x.At s) (hrw : s.par.hasRw = true)
    (hpolls : 1 ≤ s.par.maxPolls) (hleft : s.par.maxPolls ≤ x.left.length) :
    ∃ b, Conducts (25 * s.par.maxPolls + 1) s x [.waitReady long] b (x.polls (s.par.maxPolls - 1)) ∧ b.lcd.e = false := by
  have hu : Unfolds s (.waitReady long) [.poll] (s.onBus { s.bus with polls := 0 }) :=
    unfolds_job (by simp) rfl fun rest ph c ticks log => by
      simp only [runJob, runWaitReady, State.atPlace, hrw, if_true]
      rfl
  have hstart : x.At (s.onBus { s.bus with polls := 0 }) := ⟨hx.par, hx.dl, hx.ac, hx.left, hx.late⟩
  obtain ⟨b, hpoll, he⟩ := conducts_poll (s.par.maxPolls - 1) hstart hrw rfl (by omega)
  exact ⟨b, (hpoll.unfold hu rfl).mono (by omega), he⟩

/-! ### The operations of one transfer -/

/-- With INIT_DONE = 1 the operation makes one write transfer of `byte`, waits until ready, and then ends with VAL = v and the
settings given (R143 to R148). -/
def OneTransfer (s : State) (i : Instr) (rs : Bool) (byte : Byte) (v : Word) (set : Settings) : Prop :=
  ∃ w long tail, exec i s = .next (lcdJobs (.transfer w :: .waitReady long :: tail) (clearToflag s)) ∧
    (∀ t x, Course.At x t → ∃ a b, Conducts 22 t x [.transfer w] b ((x.send rs byte).setAc a) ∧ b.lcd.e = false) ∧
    ∀ t x, Course.At x t → t.set = s.set → Finishes 2 t x tail v { t with set := set } x

/-- An operation whose epilogue follows the wait at once. -/
theorem oneTransfer_of_exec {s : State} {i : Instr} {w : BusWord} {rs long : Bool} {byte : Byte} {v : Word}
    (hexec : exec i s = .next (lcdJobs [.transfer w, .waitReady long, .lcdEnd v] (clearToflag s)))
    (hsend : ∀ t x, Course.At x t → ∃ a b, Conducts 22 t x [.transfer w] b ((x.send rs byte).setAc a) ∧ b.lcd.e = false) :
    OneTransfer s i rs byte v s.set := by
  refine ⟨w, long, [.lcdEnd v], hexec, hsend, fun t x hx hset => ?_⟩
  rw [← hset]
  exact (finishes_lcdEnd hx v).mono (by decide)

/-- LCD.SET_DISPLAY (R143). -/
theorem oneTransfer_setDisplay {s : State} (hinit : s.cfg.initDone = true) (d c b : Bool) :
    OneTransfer s (.lcdSetDisplay d c b) false (displayControlByte d c b) 0 ⟨d, c, b⟩ :=
  ⟨_, false, [.setSettings d c b, .lcdEnd 0], lcdPrologue_of_initDone hinit _,
    fun _ x hx => ⟨x.ac, conducts_send hx (decodeCmdw_displayControlByte d c b) fun _ => rfl⟩,
    fun _ _ hx _ => finishes_setSettings hx d c b⟩

/-- LCD.CLEAR (R144). -/
theorem oneTransfer_clear {s : State} (hinit : s.cfg.initDone = true) : OneTransfer s .lcdClear false 0x01 0 s.set :=
  oneTransfer_of_exec (lcdPrologue_of_initDone hinit _) fun _ _ hx =>
    ⟨0, conducts_write (i := .busClearDisplay) hx rfl (fun _ => rfl) (.inl rfl)⟩

/-- LCD.HOME (R145). -/
theorem oneTransfer_home {s : State} (hinit : s.cfg.initDone = true) : OneTransfer s .lcdHome false 0x02 0 s.set :=
  oneTransfer_of_exec (lcdPrologue_of_initDone hinit _) fun _ _ hx =>
    ⟨0, conducts_write (i := .busReturnHome false) hx rfl (fun _ => rfl) (.inl rfl)⟩

/-- LCD.SET_ADDRESS (R146). -/
theorem oneTransfer_setAddress {s : State} (hinit : s.cfg.initDone = true) (a : BitVec 7) :
    OneTransfer s (.lcdSetAddress (0#1 ++ a)) false (0b1#1 ++ a) 0 s.set := by
  have hbit : (0#1 ++ a).getLsbD 7 = false := by rw [BitVec.getLsbD_append]; rfl
  have haddr : (0#1 ++ a).setWidth 7 = a := BitVec.setWidth_append_eq_right
  have hbyte : 0x80 ||| (0#1 ++ a) = 0b1#1 ++ a := by rw [← setDdramByte_setWidth, haddr, setDdramByte]
  have hexec : exec (.lcdSetAddress (0#1 ++ a)) s =
      .next (lcdJobs [.transfer (.cmdw (0x80 ||| (0#1 ++ a))), .waitReady false, .lcdEnd 0] (clearToflag s)) := by
    change execLcdSetAddress (0#1 ++ a) s = _
    rw [execLcdSetAddress, hbit, if_neg (by decide), lcdPrologue_of_initDone hinit]
    rfl
  rw [← hbyte]
  exact oneTransfer_of_exec hexec fun _ _ hx => ⟨_, conducts_setAddress hx _⟩

/-- LCD.SET_CURSOR at a position inside the geometry (R147). -/
theorem oneTransfer_setCursor {s : State} (hinit : s.cfg.initDone = true) {row col : Byte}
    (hin : cursorInBounds s.cfg row col = true) :
    OneTransfer s (.lcdSetCursor row col) false (0x80 ||| cursorAddr s.par row col) 1 s.set := by
  have hexec : exec (.lcdSetCursor row col) s = .next (lcdJobs
      [.transfer (.cmdw (0x80 ||| cursorAddr s.par row col)), .waitReady false, .lcdEnd 1] (clearToflag s)) := by
    change execLcdSetCursor row col s = _
    rw [execLcdSetCursor, lcdPrologue_of_initDone hinit, clearToflag_cfg, if_pos hin, clearToflag_par]
    rfl
  exact oneTransfer_of_exec hexec fun _ _ hx => ⟨_, conducts_setAddress hx _⟩

/-- LCD.WRITE (R148). -/
theorem oneTransfer_write {s : State} (hinit : s.cfg.initDone = true) (data : Byte) :
    OneTransfer s (.lcdWrite data) true data 1 s.set :=
  oneTransfer_of_exec (lcdPrologue_of_initDone hinit _) fun _ _ hx => ⟨_, conducts_dataWrite hx data⟩

/-! ### The timeout -/

/-- With a controller that is busy in all of its next MAX_POLLS answers, the operation ends by a course that is late (R129,
R165). -/
theorem OneTransfer.endsAs {s : State} {i : Instr} {rs : Bool} {byte : Byte} {v : Word} {set : Settings}
    (h : OneTransfer s i rs byte v set) (hpolls : 1 ≤ s.par.maxPolls) (hrw : s.par.hasRw = true)
    (hpaced : Paced (50 * (s.par.maxPolls + 2)) s) (hbusy : ControllerBusy s.cfg.dl s.par.maxPolls s) :
    ∃ t y, exec i s = .next t ∧ LcdStarted s t ∧ EndsAs y v set s.cfg s.port.rbuf.read s t ∧ y.late = true ∧
      y.ac = addressCounter (answer s.cfg.dl s (s.par.maxPolls - 1)) ∧
      y.items = writeItems s.par s.cfg.dl rs byte ++
        pollItems s.par s.cfg.dl ((answers s.cfg.dl s.env.pins).take s.par.maxPolls) := by
  obtain ⟨w, long, tail, hexec, hsend, htail⟩ := h
  obtain ⟨hlen, hflags⟩ := hbusy
  obtain ⟨a, b, hsend, he⟩ := hsend _ _ (Course.start_at_lcdJobs s (.transfer w :: .waitReady long :: tail))
  obtain ⟨b', hwait, he'⟩ := conducts_wait_polls long hsend.course hrw hpolls hlen
  have hends := (hsend.trans hwait).finishes (htail _ _ hwait.course rfl)
  have hjobs : 22 + (25 * s.par.maxPolls + 1) + 2 ≤ 50 * (s.par.maxPolls + 2) := by omega
  have hcount : s.par.maxPolls - 1 + 1 = s.par.maxPolls := Nat.sub_add_cancel hpolls
  obtain ⟨hitems, hac, hlate⟩ := Course.polls_busy (s.par.maxPolls - 1)
    (x := ((Course.start s.cfg.dl s).send rs byte).setAc a) (by rw [hcount]; exact hlen) (by rw [hcount]; exact hflags)
  rw [hcount] at hitems
  exact ⟨_, _, hexec, rfl, (hends.mono hjobs).endsAs hpaced rfl rfl
    ⟨rfl, rfl, rfl, rfl, rfl, rfl, rfl, rfl, rfl, rfl, rfl⟩ fun _ => he', hlate, hac, hitems⟩

theorem writeItems_ne_nil (par : Params) (dl rs : Bool) (b : Byte) : writeItems par dl rs b ≠ [] := by
  unfold writeItems
  split <;> simp [writeCycleItems]

/-- Settles O60: each of the six is one transfer (`OneTransfer`), whose course is late (`OneTransfer.endsAs`). -/
theorem controllerTimeoutNotFatal : Obligations.ControllerTimeoutNotFatal := by
  intro s i rs byte v set hinit hpolls hrw hpaced hbusy hi
  have htransfer : OneTransfer s i rs byte v set := by
    rcases hi with ⟨d, c, b, h⟩ | h | h | ⟨a, h⟩ | ⟨row, col, -, hin, h⟩ | ⟨d, h⟩ <;> cases h
    · exact oneTransfer_setDisplay hinit d c b
    · exact oneTransfer_clear hinit
    · exact oneTransfer_home hinit
    · exact oneTransfer_setAddress hinit a
    · exact oneTransfer_setCursor hinit hin
    · exact oneTransfer_write hinit byte
  obtain ⟨t, y, hexec, hstarted, hends, hlate, hac, hitems⟩ := htransfer.endsAs hpolls hrw hpaced hbusy
  obtain ⟨k, u, evs, hrun, hended, hset, hcfg, hu, he, hlog, hshows, hkeeps, hrbuf⟩ := hends
  rw [hlate, if_pos rfl] at hended
  have hstatus : u.port.status = 4 := hended.1
  rw [hitems] at he hshows
  exact ⟨t, hexec, hstarted, k, u, evs, hrun, hended, hstatus, hset, hcfg, hu.trans hac,
    he fun hnil => writeItems_ne_nil _ _ _ _ (List.append_eq_nil_iff.1 hnil).1, hlog, hshows, hkeeps, hrbuf⟩

end Sys2Proof.Machine
end

section
/-! The checks that an LCD operation makes before any event (spec/43_lcd_ops.md R138, R141, R147, R151 to R153;
spec/60_exceptions.md R163), and LCD.GET_SETTINGS, which makes none but R138's (R154). -/

namespace Sys2Proof.Machine

/-! ### Started operations -/

/-- The timer's move does not look at TOFLAG. -/
theorem advanceTimer_clearToflag (s : State) : advanceTimer (clearToflag s) = clearToflag (advanceTimer s) := by
  simp only [advanceTimer, drawTicks, ticks, clearToflag]
  cases s.env.ticks with
  | nil | cons => rfl

/-- The timer moves after an operation's start as it would have moved before it. -/
theorem advanceTimer_started (js : List Job) (s : State) :
    advanceTimer (lcdJobs js (clearToflag s)) = lcdJobs js (clearToflag (advanceTimer s)) :=
  (advanceTimer_position (clearToflag s) (.lcdRun 0) js).trans (congrArg (lcdJobs js) (advanceTimer_clearToflag s))

theorem lcdStarted_lcdJobs (js : List Job) (s : State) : LcdStarted s (lcdJobs js (clearToflag s)) := rfl

/-! ### Failed checks -/

/-- After the start, the raise alone is ahead (`step_raise`); an error that forgets nothing but TOFLAG leaves the rest as it
was (R161, R163). -/
theorem failsCheck_of_exec {st : Status} {i : Instr} {s : State} (hforget : ∀ a, forgetAfter st a = forgetToflag a)
    (hexec : exec i s = .next (lcdFail st (clearToflag s))) (hi : s.inputs = []) (hb : s.port.opbusy = true) :
    FailsCheck st i s := by
  refine ⟨_, hexec, lcdStarted_lcdJobs _ s, _, step_raise hi hb rfl, ?_⟩
  rw [lcdFail, advanceTimer_started, hforget]
  exact ⟨raisedError_raise (by simp [lcdJobs]), by simp [lcdJobs]⟩

theorem lcdPrologue_of_not_initDone {s : State} (h : s.cfg.initDone = false) (body : State → State) :
    lcdPrologue body s = .next (lcdFail .notInitialized (clearToflag s)) := if_neg (by simp [h])

theorem lcdPrologue_needsRw_fails {s : State} (hinit : s.cfg.initDone = true) (hrw : s.par.hasRw = false)
    (body : State → State) : lcdPrologue (needsRw body) s = .next (lcdFail .notSupported (clearToflag s)) :=
  (lcdPrologue_of_initDone hinit _).trans (congrArg _ (if_neg (by simp [hrw])))

/-- A well-formed LCD operation but LCD.INIT checks INIT_DONE first; an address byte of the encoding has bit 7 clear (R138). -/
theorem exec_of_not_initDone {s : State} {i : Instr} (hneeds : needsInit i = true) (hwf : i.wellFormed = true)
    (h : s.cfg.initDone = false) : exec i s = .next (lcdFail .notInitialized (clearToflag s)) := by
  cases i with
  | lcdSetAddress addr =>
    have hbit : ¬ addr.getLsbD 7 = true := by simpa [Instr.wellFormed] using hwf
    exact (if_neg hbit).trans (lcdPrologue_of_not_initDone h _)
  | lcdSetCursor row col =>
    change execLcdSetCursor row col s = _
    rw [execLcdSetCursor, lcdPrologue_of_not_initDone h]
  | lcdSetDisplay | lcdClear | lcdHome | lcdWrite | lcdWriteRow | lcdRead | lcdReadRow | lcdIsBusy
  | lcdGetSettings => exact lcdPrologue_of_not_initDone h _
  | _ => cases hneeds

/-- Settles O44: the prologue fails (`exec_of_not_initDone`), and then the raise. -/
theorem notInitialized : Obligations.NotInitialized :=
  fun _ _ hneeds hwf hinit => failsCheck_of_exec (fun _ => rfl) (exec_of_not_initDone hneeds hwf hinit)

/-- Settles O45: past the prologue the check of the pin fails (`lcdPrologue_needsRw_fails`), and then the raise. -/
theorem notSupportedWithoutReadPin : Obligations.NotSupportedWithoutReadPin := by
  intro s i hread hinit hrw
  refine failsCheck_of_exec (fun _ => rfl) ?_
  cases i with
  | lcdRead | lcdReadRow | lcdIsBusy => exact lcdPrologue_needsRw_fails hinit hrw _
  | _ => cases hread

/-- R141's bounds on the columns, of which a row at 0x40 leaves half. -/
theorem configLegal_default {par : Params} (n : Bool) (cols : Byte) (h0 : par.rowOffset0 = 0x00)
    (h1 : par.rowOffset1 = 0x40) :
    configLegal par n cols = true ↔ 1 ≤ cols.toNat ∧ cols.toNat ≤ if n then 64 else 128 := by
  have hfirst : (0x00 : Byte).toNat = 0 := rfl
  have hsecond : (0x40 : Byte).toNat = 64 := rfl
  rw [configLegal_iff, h0, h1, hfirst, hsecond]
  cases n with
  | false =>
    simp only [Bool.false_eq_true, if_false, false_imp_iff, and_true]
    omega
  | true =>
    simp only [if_true, true_imp_iff]
    omega

/-- Settles O46: LCD.INIT's own check fails, and then the raise; the bounds are `configLegal_default`. -/
theorem invalidConfig : Obligations.InvalidConfig :=
  ⟨fun _ _ _ _ _ hconfig => failsCheck_of_exec (fun _ => rfl) (if_neg (by simp [hconfig])),
    fun _ n cols h0 h1 => configLegal_default n cols h0 h1⟩

/-- Settles O47: past the prologue the check of the bounds fails (`cursorInBounds_iff`), and then the raise. -/
theorem cursorOutOfBounds : Obligations.CursorOutOfBounds := by
  intro s row col hinit hout
  have hbounds : ¬ cursorInBounds s.cfg row col = true := by
    rw [cursorInBounds_iff, rows]
    omega
  refine failsCheck_of_exec (fun _ => rfl) ?_
  change execLcdSetCursor row col s = _
  rw [execLcdSetCursor, lcdPrologue_of_initDone hinit, clearToflag_cfg, if_neg hbounds]

/-! ### LCD.GET_SETTINGS -/

/-- CFG_COLS stands above sixteen bits of the VAL of LCD.GET_SETTINGS (R154). -/
theorem extractLsb'_settingsVal (cfg : LcdConfig) (set : Settings) :
    (settingsVal cfg set).extractLsb' 16 8 = cfg.cols := by
  rw [settingsVal]
  iterate 8 rw [BitVec.extractLsb'_append_eq_of_le (by decide)]
  rw [BitVec.extractLsb'_append_eq_of_add_le (by decide)]
  exact BitVec.extractLsb'_eq_self

/-- The flags in the VAL of LCD.GET_SETTINGS (R154). -/
theorem settingsVal_flags (cfg : LcdConfig) (set : Settings) :
    (settingsVal cfg set).getLsbD 31 = cfg.initDone ∧ (settingsVal cfg set).getLsbD 10 = cfg.f ∧
      (settingsVal cfg set).getLsbD 9 = cfg.n ∧ (settingsVal cfg set).getLsbD 8 = cfg.dl ∧
      (settingsVal cfg set).getLsbD 2 = set.d ∧ (settingsVal cfg set).getLsbD 1 = set.c ∧
      (settingsVal cfg set).getLsbD 0 = set.b := by
  rw [settingsVal]
  refine ⟨?_, ?_, ?_, ?_, ?_, ?_, ?_⟩
  all_goals
    iterate 10 rw [BitVec.getLsbD_append]
    simp

/-- The bits of LCD.GET_SETTINGS' VAL outside its fields are 0 (R154). -/
theorem settingsVal_fillers (cfg : LcdConfig) (set : Settings) : settingsVal cfg set &&& 0x7F00F8F8 = 0 := by
  have hmask : (0x7F00F8F8 : Word) =
      0#1 ++ 0x7F#7 ++ 0#8 ++ 0x1F#5 ++ 0#1 ++ 0#1 ++ 0#1 ++ 0x1F#5 ++ 0#1 ++ 0#1 ++ 0#1 := by decide
  rw [hmask, settingsVal]
  iterate 10 rw [BitVec.and_append]
  simp only [BitVec.and_zero, BitVec.zero_and]
  rfl

/-- LCD.GET_SETTINGS ends in the step after its start, with the cached configuration and settings (R154). -/
theorem step_settingsEnd {s : State} (hi : s.inputs = []) (hb : s.port.opbusy = true) :
    step (lcdJobs [.settingsEnd] (clearToflag s)) =
      .next (conclude .ok (settingsVal s.cfg s.set)
        (forgetToflag (takeJob [] (lcdJobs [.settingsEnd] (clearToflag (advanceTimer s)))))) := by
  rw [step_job_advance (s := lcdJobs [.settingsEnd] (clearToflag s)) hi hb rfl (by simp) rfl, advanceTimer_started]
  simp [runJob, runSettingsEnd, lcdJobs]

/-- Settles O59: the one step (`step_settingsEnd`) and the layout of its VAL (`settingsVal_flags`,
`extractLsb'_settingsVal`, `settingsVal_fillers`). -/
theorem getSettingsIsLocal : Obligations.GetSettingsIsLocal := by
  intro s hinit hi hb
  obtain ⟨hinitDone, hf, hn, hdl, hd, hc, hblink⟩ := settingsVal_flags s.cfg s.set
  refine ⟨_, lcdPrologue_of_initDone hinit _, lcdStarted_lcdJobs _ s, _, step_settingsEnd hi hb,
    endedWith_conclude (by simp [lcdJobs]) .ok _, hinitDone, extractLsb'_settingsVal s.cfg s.set, hf, hn, hdl, hd, hc, hblink,
    settingsVal_fillers s.cfg s.set, ?_⟩
  simp [lcdJobs, LcdKeeps]

end Sys2Proof.Machine
end
